-- ==== Sys2Proof/Word.lean ====
section
/-! DEFINITION. The word types of the block: bytes, host operation words and the address widths of
spec/10_state.md and spec/20_memory.md. Only names for `BitVec`s stand here. -/

namespace Sys2Proof

/-- One byte: a port value, a memory cell, a pattern plane. -/
abbrev Byte := BitVec 8

/-- One 16-bit host operation word (HOW), rule R90. -/
abbrev HostWord := BitVec 16

/-- A composite address register, `v` or `t`: 15 bits (rule R24). -/
abbrev CompositeAddr := BitVec 15

/-- An address before rule R62 reduces it: wide enough for the 15-bit `v` and for every address the
pipelines compute. -/
abbrev BusAddr := BitVec 16

/-- A 14-bit address of the PPU address space (rule R60), after rule R62. -/
abbrev PpuAddr := BitVec 14

/-- A 6-bit colour index, one pixel of a frame buffer (rule R44). -/
abbrev Colour := BitVec 6

end Sys2Proof
end

