-- ==== Sys2Proof/Config.lean ====
section
/-! DEFINITION. What is fixed for one machine or left open by the spec: the parameter types of rule
R10 and the free values, each a constant without a body (log entries 2 to 6). -/

namespace Sys2Proof

/-- The mapper's `mirroringMode()` answer, the parameter `MIRRORING` (rules R10, R68): only these two. -/
inductive Mirroring where
  | horizontal
  | vertical
deriving DecidableEq, Repr, Inhabited

/-- The parameter `STATUS_LOW_SOURCE` (rules R10, R123; decision D7). -/
inductive StatusLowSource where
  | lastReturned
  | readBuffer
deriving DecidableEq, Repr, Inhabited

/-- The four memories of rules R31 and R45: it names which memory a power-on draw belongs to. -/
inductive Region where
  | oam
  | nt
  | pal
  | pt
deriving DecidableEq, Repr, Inhabited

/-- The two frame buffers of rule R44: it names which buffer's power-on draw an unwritten pixel is. -/
inductive FrameId where
  | back
  | front
deriving DecidableEq, Repr, Inhabited

/-- One entry of the system colour table: four 8-bit channels (rule R10). -/
structure Rgba where
  r : Byte
  g : Byte
  b : Byte
  a : Byte
deriving DecidableEq, Repr, Inhabited

/-- FREE VALUE (R302, decision D39): what a memory cell holds at power-on, per memory and cell index. -/
opaque Config.powerOnByte : Region → Nat → Byte

/-- FREE VALUE (R302, decision D39): what a frame-buffer pixel holds at power-on. -/
opaque Config.powerOnPixel : FrameId → Nat → Colour

/-- FREE VALUE (decisions D8, D10): the byte of the n-th port read to which the spec gives no value. -/
opaque Config.portDraw : Nat → Byte

/-- FREE VALUE (R282, decision D43): the mapper's answer to its n-th question, an `interceptRead`. -/
opaque Config.interceptRead : Nat → PpuAddr → Option Byte

/-- FREE VALUE (R282, decision D43): the mapper's answer to its n-th question, an `interceptWrite`. -/
opaque Config.interceptWrite : Nat → PpuAddr → Byte → Bool

/-- OPEN PARAMETER `SYSTEM_PALETTE` (R10, decision D34): the 64-entry system colour table. -/
opaque Config.systemPalette : Colour → Rgba

end Sys2Proof
end

