-- ==== Sys2Proof/Syntax.lean ====
section
/-! DEFINITION. The host operations of rule R96, one constructor per row of spec/opcode_table.json, and
the fields of a host operation word (rules R90 to R92). -/

namespace Sys2Proof

/-- A host operation. The only operand is the data byte of a port write (rule R93). -/
inductive Instr where
  | wrCtrl (d : Byte)
  | wrMask (d : Byte)
  | wrStatus (d : Byte)
  | wrOamaddr (d : Byte)
  | wrOamdata (d : Byte)
  | wrScroll (d : Byte)
  | wrAddr (d : Byte)
  | wrData (d : Byte)
  | rdCtrl
  | rdMask
  | rdStatus
  | rdOamaddr
  | rdOamdata
  | rdScroll
  | rdAddr
  | rdData
  | dbgCtrl
  | dbgMask
  | dbgStatus
  | dbgOamaddr
  | dbgOamdata
  | dbgScroll
  | dbgAddr
  | dbgData
  | tick
  | reset
  | ackNmi
  | ackFrame
deriving DecidableEq, Repr

/-- The eight ports, in the order of rule R92. -/
inductive Port where
  | ctrl
  | mask
  | status
  | oamaddr
  | oamdata
  | scroll
  | addr
  | data
deriving DecidableEq, Repr

/-- The operation classes that the `op` field selects (rule R91). -/
inductive HostClass where
  | wr
  | rd
  | dbg
  | tick
  | reset
  | ackNmi
  | ackFrame
  | reserved
deriving DecidableEq, Repr

/-- The four fields of a host operation word (rule R90), before they are checked. -/
structure HostFields where
  op : BitVec 3
  rsv : BitVec 2
  port : BitVec 3
  data : Byte
deriving DecidableEq, Repr

end Sys2Proof
end

