-- ==== Sys2Proof/WellFormed.lean ====
section
/-! DEFINITION. Well-formedness: the four checks that rule R94 makes on the fields of a word, and the
fields of each host operation (rule R96). A host operation carries no operand that its type does not
already bound, so its well-formedness is that of its fields. -/

namespace Sys2Proof

/-- The class of an `op` field (rule R91). -/
def HostClass.ofBits (op : BitVec 3) : HostClass :=
  match op.toNat with
  | 0 => .wr
  | 1 => .rd
  | 2 => .dbg
  | 3 => .tick
  | 4 => .reset
  | 5 => .ackNmi
  | 6 => .ackFrame
  | _ => .reserved

/-- The `op` field of a class (rule R91). -/
def HostClass.bits : HostClass → BitVec 3
  | .wr => 0b000#3
  | .rd => 0b001#3
  | .dbg => 0b010#3
  | .tick => 0b011#3
  | .reset => 0b100#3
  | .ackNmi => 0b101#3
  | .ackFrame => 0b110#3
  | .reserved => 0b111#3

/-- The port that a `port` field names (rule R92). -/
def Port.ofBits (port : BitVec 3) : Port :=
  match port.toNat with
  | 0 => .ctrl
  | 1 => .mask
  | 2 => .status
  | 3 => .oamaddr
  | 4 => .oamdata
  | 5 => .scroll
  | 6 => .addr
  | _ => .data

/-- The number of a port (rule R92). -/
def Port.bits : Port → BitVec 3
  | .ctrl => 0#3
  | .mask => 1#3
  | .status => 2#3
  | .oamaddr => 3#3
  | .oamdata => 4#3
  | .scroll => 5#3
  | .addr => 6#3
  | .data => 7#3

/-- The reserved bits are zero (rules R90, R94). -/
def HostFields.rsvZero (f : HostFields) : Bool := f.rsv == 0#2

/-- The `op` field is not the reserved 111 (rules R91, R94). -/
def HostFields.opDefined (f : HostFields) : Bool := HostClass.ofBits f.op != .reserved

/-- The classes whose words name a port: WR, RD and DBG (rule R90). -/
def HostClass.usesPort : HostClass → Bool
  | .wr => true
  | .rd => true
  | .dbg => true
  | .tick => false
  | .reset => false
  | .ackNmi => false
  | .ackFrame => false
  | .reserved => false

/-- The one class whose words carry a data byte: WR (rule R90). -/
def HostClass.usesData : HostClass → Bool
  | .wr => true
  | .rd => false
  | .dbg => false
  | .tick => false
  | .reset => false
  | .ackNmi => false
  | .ackFrame => false
  | .reserved => false

/-- A class without a port has port bits 000 (rules R90, R94). -/
def HostFields.portZeroIfUnused (f : HostFields) : Bool :=
  (HostClass.ofBits f.op).usesPort || f.port == 0#3

/-- A class without data has data bits 0 (rules R90, R94). -/
def HostFields.dataZeroIfUnused (f : HostFields) : Bool :=
  (HostClass.ofBits f.op).usesData || f.data == 0#8

/-- The words that rule R94 does not refuse. -/
def HostFields.wellFormed (f : HostFields) : Bool :=
  f.rsvZero && f.opDefined && f.portZeroIfUnused && f.dataZeroIfUnused

/-- The fields of a port operation's word. -/
def portFields (c : HostClass) (p : Port) (d : Byte) : HostFields :=
  { op := c.bits, rsv := 0#2, port := p.bits, data := d }

/-- The fields of a control operation's word: no port, no data. -/
def controlFields (c : HostClass) : HostFields :=
  { op := c.bits, rsv := 0#2, port := 0#3, data := 0#8 }

/-- The fields of every host operation, row by row (rule R96). -/
def Instr.fields : Instr → HostFields
  | .wrCtrl d => portFields .wr .ctrl d
  | .wrMask d => portFields .wr .mask d
  | .wrStatus d => portFields .wr .status d
  | .wrOamaddr d => portFields .wr .oamaddr d
  | .wrOamdata d => portFields .wr .oamdata d
  | .wrScroll d => portFields .wr .scroll d
  | .wrAddr d => portFields .wr .addr d
  | .wrData d => portFields .wr .data d
  | .rdCtrl => portFields .rd .ctrl 0#8
  | .rdMask => portFields .rd .mask 0#8
  | .rdStatus => portFields .rd .status 0#8
  | .rdOamaddr => portFields .rd .oamaddr 0#8
  | .rdOamdata => portFields .rd .oamdata 0#8
  | .rdScroll => portFields .rd .scroll 0#8
  | .rdAddr => portFields .rd .addr 0#8
  | .rdData => portFields .rd .data 0#8
  | .dbgCtrl => portFields .dbg .ctrl 0#8
  | .dbgMask => portFields .dbg .mask 0#8
  | .dbgStatus => portFields .dbg .status 0#8
  | .dbgOamaddr => portFields .dbg .oamaddr 0#8
  | .dbgOamdata => portFields .dbg .oamdata 0#8
  | .dbgScroll => portFields .dbg .scroll 0#8
  | .dbgAddr => portFields .dbg .addr 0#8
  | .dbgData => portFields .dbg .data 0#8
  | .tick => controlFields .tick
  | .reset => controlFields .reset
  | .ackNmi => controlFields .ackNmi
  | .ackFrame => controlFields .ackFrame

/-- A host operation is well-formed when its fields are. -/
def Instr.wellFormed (i : Instr) : Bool := i.fields.wellFormed

end Sys2Proof
end

