-- ==== Sys2Proof/Decode.lean ====
section
/-! DEFINITION. The decoder of rule R94, total on all 65 536 words and refusing by name, and the encoder
written from the table of rule R96. -/

namespace Sys2Proof

/-- Why a word is refused (rules R94, R97), in the order the decoder looks. -/
inductive DecodeError where
  /-- Bits 12:11 are not zero. -/
  | reservedBits
  /-- The `op` field is 111. -/
  | reservedOp
  /-- A port or data field that the class does not use is not zero. -/
  | nonzeroUnusedField
deriving DecidableEq, Repr

/-- The fields of a word (rule R90): op 15:13, rsv 12:11, port 10:8, data 7:0. -/
def HostFields.ofWord (w : HostWord) : HostFields :=
  { op := w.extractLsb' 13 3, rsv := w.extractLsb' 11 2, port := w.extractLsb' 8 3, data := w.extractLsb' 0 8 }

/-- The word that holds the four fields (rule R90). -/
def HostFields.toWord (f : HostFields) : HostWord := f.op ++ f.rsv ++ f.port ++ f.data

/-- The port write a `port` field selects (rules R91, R92). -/
def writeOf (p : Port) (d : Byte) : Instr :=
  match p with
  | .ctrl => .wrCtrl d
  | .mask => .wrMask d
  | .status => .wrStatus d
  | .oamaddr => .wrOamaddr d
  | .oamdata => .wrOamdata d
  | .scroll => .wrScroll d
  | .addr => .wrAddr d
  | .data => .wrData d

/-- The normal-mode read a `port` field selects. -/
def readOf : Port → Instr
  | .ctrl => .rdCtrl
  | .mask => .rdMask
  | .status => .rdStatus
  | .oamaddr => .rdOamaddr
  | .oamdata => .rdOamdata
  | .scroll => .rdScroll
  | .addr => .rdAddr
  | .data => .rdData

/-- The debug-mode read a `port` field selects. -/
def debugOf : Port → Instr
  | .ctrl => .dbgCtrl
  | .mask => .dbgMask
  | .status => .dbgStatus
  | .oamaddr => .dbgOamaddr
  | .oamdata => .dbgOamdata
  | .scroll => .dbgScroll
  | .addr => .dbgAddr
  | .data => .dbgData

/-- `i`, unless a data bit is set that the class does not use. -/
def requireNoData (f : HostFields) (i : Instr) : Except DecodeError Instr :=
  if f.data = 0#8 then .ok i else .error .nonzeroUnusedField

/-- `i`, unless a port or data bit is set; a control operation uses neither. -/
def requireNoPortNoData (f : HostFields) (i : Instr) : Except DecodeError Instr :=
  if f.port = 0#3 ∧ f.data = 0#8 then .ok i else .error .nonzeroUnusedField

/-- The decoder on fields (rule R94). -/
def decodeFields (f : HostFields) : Except DecodeError Instr :=
  if f.rsv ≠ 0#2 then .error .reservedBits
  else
    match HostClass.ofBits f.op with
    | .wr => .ok (writeOf (Port.ofBits f.port) f.data)
    | .rd => requireNoData f (readOf (Port.ofBits f.port))
    | .dbg => requireNoData f (debugOf (Port.ofBits f.port))
    | .tick => requireNoPortNoData f .tick
    | .reset => requireNoPortNoData f .reset
    | .ackNmi => requireNoPortNoData f .ackNmi
    | .ackFrame => requireNoPortNoData f .ackFrame
    | .reserved => .error .reservedOp

/-- The decoder (rule R94): one of the 28 operations, or the reason the word is refused. -/
def decode (w : HostWord) : Except DecodeError Instr := decodeFields (HostFields.ofWord w)

/-- The encoder: the word of a host operation (rules R90, R96). -/
def encode (i : Instr) : HostWord := i.fields.toWord

/-- What the decoder reads from a table word: a host operation is ONE 16-bit word (rule R90), so the
table's numbering of bits is the word's own. -/
def decodeTableWord (nbits w : Nat) : Option Instr :=
  if nbits ≤ 16 ∧ w < 2 ^ nbits then
    match decode (BitVec.ofNat 16 w) with
    | .ok i => some i
    | .error _ => none
  else none

end Sys2Proof
end

