-- ==== Sys2Proof/Machine/State.lean ====
section
/-! DEFINITION. The state of the block (rule R20) as plain data, grouped by sub-block as rule R20 groups
it, with the model's own fields for the agents outside it: the mapper, the driver's queue of host
operation words, and what the driver and the mapper observe (rule R287). -/

namespace Sys2Proof.Machine

/-- A sparse memory: (cell index, byte) pairs, indices strictly rising. An index that is not listed has
never been written since power-on and holds a draw (rule R302; log entry 3). -/
abbrev Memory := List Host.Cell

/-- The register bank (rules R21 to R30). -/
structure RegisterBank where
  ctrl : Byte
  mask : Byte
  status : Byte
  v : CompositeAddr
  t : CompositeAddr
  fineX : BitVec 3
  w : Bool
  readBuffer : Byte
  lastDataOut : Byte
  oamAddr : Byte
deriving DecidableEq, Repr

/-- The memories (rules R31, R45). Cell `NT[b][o]` has index `1024 * b + o`, cell `PT[b][o]` has index
`4096 * b + o`. -/
structure Memories where
  oam : Memory
  nt : Memory
  pal : Memory
  pt : Memory
deriving DecidableEq, Repr

/-- The background pipeline: fetch latches (rule R33) and 16-bit shifters (rule R34). -/
structure Background where
  nextId : Byte
  nextAttr : BitVec 2
  nextLo : Byte
  nextHi : Byte
  patLo : BitVec 16
  patHi : BitVec 16
  attrLo : BitVec 16
  attrHi : BitVec 16
deriving DecidableEq, Repr

/-- One slot of the visible list (rule R35) with its two 8-bit pattern shifters (rule R37). -/
structure Slot where
  y : Byte
  id : Byte
  attr : Byte
  x : Byte
  lo : Byte
  hi : Byte
deriving DecidableEq, Repr

/-- The sprite pipeline (rules R35 to R38). -/
structure Sprites where
  slot : Vector Slot 8
  count : Nat
  zeroPossible : Bool
deriving DecidableEq, Repr

/-- The timing engine (rules R39 to R43). -/
structure Timing where
  scanline : Int
  dot : Nat
  oddFrame : Bool
  nmiPending : Bool
  frameComplete : Bool
deriving DecidableEq, Repr

/-- A frame buffer (rule R44): the pixels written since power-on, pixel (x, y) at index `256 * y + x`,
indices strictly rising. An unlisted pixel holds the power-on draw of the buffer `origin` names: a
publication copies the draws with the pixels (rules R248, R302; log entry 4). -/
structure Frame where
  origin : FrameId
  pixels : List (Nat × Colour)
deriving DecidableEq, Repr

/-- A call the block makes on the mapper (rule R282). -/
inductive MapperCall where
  | interceptRead (a : PpuAddr)
  | interceptWrite (a : PpuAddr) (value : Byte)
  | mirroringMode
  | onScanlineBoundary
  | onLatchUpdate (a : PpuAddr)
deriving DecidableEq, Repr

/-- The mapper as the block sees it (rules R7, R282): whether one is attached (R271), its mirroring
(R68), and its answers, which are inputs of the step under no law (D43). The answers given in the two
lists come first, oldest first; past them the answer is the free value of Config for the question's
number (log entry 5). -/
structure Mapper where
  attached : Bool
  mirroring : Mirroring
  readAnswers : List (Option Byte)
  writeAnswers : List Bool
  asks : Nat
deriving DecidableEq, Repr

/-- The machine. The first seven fields are rule R20's state; the others are the model's own (log
entries 1, 2, 5, 7 and 8). -/
structure State where
  bank : RegisterBank
  mem : Memories
  bg : Background
  sp : Sprites
  timing : Timing
  back : Frame
  front : Frame
  /-- The mapper collaborator. -/
  mapper : Mapper
  /-- The parameter `STATUS_LOW_SOURCE` (rule R10). -/
  statusLowSource : StatusLowSource
  /-- How many port-read draws have been used (decisions D8, D10). -/
  draws : Nat
  /-- The host operation words the driver has issued and the block has not yet executed, oldest first. -/
  driver : List HostWord
  /-- The bytes returned to the driver, newest first (rule R287, item 1). -/
  returned : List Byte
  /-- The mapper calls made, newest first (rule R287, item 2). -/
  trace : List MapperCall
deriving DecidableEq, Repr

/-- Why the machine stops with a fault. -/
inductive Fault where
  /-- Raised by WR_DATA, RD_DATA, a TICK that would call the mapper and a tile query when no mapper is attached (rule
  R271, decision D40: stuck). Safe: the spec gives the block no step there. -/
  | missingMapper
deriving DecidableEq, Repr

/-- Why the model gives a word no step. -/
inductive Refusal where
  /-- Raised by exec's arm of an instruction without a meaning; no arm raises it now. Safe. -/
  | notModelled (mnemonic : String)
  /-- Raised by step on a word with `rsv` other than 0 (rules R94, R272). Safe: no operation has that word. -/
  | reservedBits (w : HostWord)
  /-- Raised by step on a word with `op` = 111 (rules R94, R272). Safe: no operation has that word. -/
  | reservedOp (w : HostWord)
  /-- Raised by step on a word with an unused field other than 0 (rules R94, R272). Safe: no operation has
  that word. -/
  | nonzeroUnusedField (w : HostWord)
deriving DecidableEq, Repr

/-- The register bank after reset (rule R49). -/
def RegisterBank.reset : RegisterBank :=
  { ctrl := 0x00#8, mask := 0x00#8, status := 0x00#8, v := 0x0000#15, t := 0x0000#15, fineX := 0#3, w := false,
    readBuffer := 0x00#8, lastDataOut := 0x00#8, oamAddr := 0x00#8 }

/-- The background pipeline after reset (rule R49). -/
def Background.reset : Background :=
  { nextId := 0x00#8, nextAttr := 0#2, nextLo := 0x00#8, nextHi := 0x00#8,
    patLo := 0x0000#16, patHi := 0x0000#16, attrLo := 0x0000#16, attrHi := 0x0000#16 }

/-- A slot after reset (rule R49): every byte of the slot 0xFF, its shifters 0. -/
def Slot.reset : Slot := { y := 0xFF#8, id := 0xFF#8, attr := 0xFF#8, x := 0xFF#8, lo := 0x00#8, hi := 0x00#8 }

/-- The sprite pipeline after reset (rule R49). -/
def Sprites.reset : Sprites := { slot := Vector.replicate 8 Slot.reset, count := 0, zeroPossible := false }

/-- The timing engine after reset (rule R49). -/
def Timing.reset : Timing :=
  { scanline := -1, dot := 0, oddFrame := false, nmiPending := false, frameComplete := false }

/-- The machine at power-on (rules R49, R300): every register at the value of rule R49, nothing written
in any memory or frame buffer, a mapper attached (D43), and nothing issued, returned or called yet. The
mirroring is the model's choice (log entry 6). -/
def State.reset : State :=
  { bank := RegisterBank.reset
    mem := { oam := [], nt := [], pal := [], pt := [] }
    bg := Background.reset
    sp := Sprites.reset
    timing := Timing.reset
    back := { origin := .back, pixels := [] }
    front := { origin := .front, pixels := [] }
    mapper := { attached := true, mirroring := .vertical, readAnswers := [], writeAnswers := [], asks := 0 }
    statusLowSource := .lastReturned
    draws := 0
    driver := []
    returned := []
    trace := [] }

end Sys2Proof.Machine
end

