-- ==== Sys2Proof/Machine/Operands.lean ====
section
/-! DEFINITION. The named fields of the block's words: CTRL, MASK and OAM attribute bits, the sub-fields
of `v` and `t`, how each port splits its data byte (rule R93), and the bit helpers they use. -/

namespace Sys2Proof.Machine

/-! ### Bit helpers (rules R11, R12) -/

/-- `rev8` of rule R12: bit i moves to bit 7 − i. -/
def rev8 (b : Byte) : Byte := b.reverse

/-- One bit of a word as a one-bit field. -/
def bitField {n : Nat} (b : BitVec n) (i : Nat) : BitVec 1 := BitVec.ofBool (b.getLsbD i)

/-! ### CTRL (rule R21) -/

def ctrlNtX (c : Byte) : BitVec 1 := bitField c 0
def ctrlNtY (c : Byte) : BitVec 1 := bitField c 1
def ctrlInc32 (c : Byte) : Bool := c.getLsbD 2
def ctrlSpBank (c : Byte) : BitVec 1 := bitField c 3
def ctrlBgBank (c : Byte) : BitVec 1 := bitField c 4
def ctrlSpSize16 (c : Byte) : Bool := c.getLsbD 5
def ctrlNmiEnable (c : Byte) : Bool := c.getLsbD 7

/-! ### MASK (rule R22) -/

def maskGray (m : Byte) : Bool := m.getLsbD 0
def maskShowBgLeft (m : Byte) : Bool := m.getLsbD 1
def maskShowSpLeft (m : Byte) : Bool := m.getLsbD 2
def maskShowBg (m : Byte) : Bool := m.getLsbD 3
def maskShowSp (m : Byte) : Bool := m.getLsbD 4

/-- `renderingEnabled` (rule R14, decision D49). -/
def maskRenderingEnabled (m : Byte) : Bool := maskShowBg m || maskShowSp m

/-! ### OAM attribute byte (rule R32) -/

def attrSpPal (a : Byte) : BitVec 2 := a.extractLsb' 0 2
def attrBehindBg (a : Byte) : Bool := a.getLsbD 5
def attrHFlip (a : Byte) : Bool := a.getLsbD 6
def attrVFlip (a : Byte) : Bool := a.getLsbD 7

/-! ### The sub-fields of `v` and `t` (rule R24) -/

def coarseX (a : CompositeAddr) : BitVec 5 := a.extractLsb' 0 5
def coarseY (a : CompositeAddr) : BitVec 5 := a.extractLsb' 5 5
def ntX (a : CompositeAddr) : BitVec 1 := a.extractLsb' 10 1
def ntY (a : CompositeAddr) : BitVec 1 := a.extractLsb' 11 1
def fineY (a : CompositeAddr) : BitVec 3 := a.extractLsb' 12 3

/-- A composite address from its five sub-fields, in the order of rule R24. -/
def compositeAddr (fy : BitVec 3) (ny nx : BitVec 1) (cy cx : BitVec 5) : CompositeAddr :=
  fy ++ ny ++ nx ++ cy ++ cx

/-! A sub-field write changes only its own bits (rule R25). -/

def setCoarseX (a : CompositeAddr) (x : BitVec 5) : CompositeAddr :=
  compositeAddr (fineY a) (ntY a) (ntX a) (coarseY a) x
def setCoarseY (a : CompositeAddr) (y : BitVec 5) : CompositeAddr :=
  compositeAddr (fineY a) (ntY a) (ntX a) y (coarseX a)
def setNtX (a : CompositeAddr) (b : BitVec 1) : CompositeAddr :=
  compositeAddr (fineY a) (ntY a) b (coarseY a) (coarseX a)
def setNtY (a : CompositeAddr) (b : BitVec 1) : CompositeAddr :=
  compositeAddr (fineY a) b (ntX a) (coarseY a) (coarseX a)
def setFineY (a : CompositeAddr) (y : BitVec 3) : CompositeAddr :=
  compositeAddr y (ntY a) (ntX a) (coarseY a) (coarseX a)

/-! ### How a port splits its data byte (rule R93) -/

/-- SCROLL: the fine value, `data[2:0]`. -/
def scrollFine (d : Byte) : BitVec 3 := d.extractLsb' 0 3

/-- SCROLL: the coarse value, `data[7:3]`. -/
def scrollCoarse (d : Byte) : BitVec 5 := d.extractLsb' 3 5

/-- ADDR, first write (rule R119): the high byte of `t`, masked to 6 bits; `t[14]` becomes 0. -/
def addrHigh (t : CompositeAddr) (d : Byte) : CompositeAddr :=
  ((d &&& 0x3F#8).setWidth 15 <<< 8) ||| (t &&& 0x00FF#15)

/-- ADDR, second write (rule R119): the low byte of `t`. -/
def addrLow (t : CompositeAddr) (d : Byte) : CompositeAddr := (t &&& 0x7F00#15) ||| d.setWidth 15

/-- CTRL (rule R113, decision D12): `t[10] <- d[0]`, `t[11] <- d[1]`. -/
def ctrlIntoT (t : CompositeAddr) (d : Byte) : CompositeAddr := setNtY (setNtX t (ctrlNtX d)) (ctrlNtY d)

/-! ### Addresses -/

/-- Rule R62: every access first reduces its address to 14 bits. -/
def ppuAddr (addr : BusAddr) : PpuAddr := addr.setWidth 14

/-- A composite address as the address of an access. -/
def busOf (v : CompositeAddr) : BusAddr := v.setWidth 16

/-- `IncV`'s stride (rule R111). -/
def stride (ctrl : Byte) : CompositeAddr := if ctrlInc32 ctrl then 32#15 else 1#15

/-- `InPaletteRange` (rule R112, decision D13). -/
def inPaletteRange (v : CompositeAddr) : Bool := 0x3F00#14 ≤ ppuAddr (busOf v)

/-- The pattern range of rule R61. -/
def inPatternRange (a : PpuAddr) : Bool := a ≤ 0x1FFF#14

/-- The nametable range of rule R61. -/
def inNametableRange (a : PpuAddr) : Bool := !inPatternRange a && a ≤ 0x3EFF#14

/-- The index of the pattern cell `PT[a[12]][a[11:0]]` (rule R66). -/
def ptIndex (a : PpuAddr) : Nat := 4096 * (a.extractLsb' 12 1).toNat + (a.extractLsb' 0 12).toNat

/-- The bank of a nametable access (rule R68): `n[10]` under vertical mirroring, `n[11]` under horizontal. -/
def ntBank (m : Mirroring) (a : PpuAddr) : BitVec 1 :=
  match m with
  | .vertical => a.extractLsb' 10 1
  | .horizontal => a.extractLsb' 11 1

/-- The index of the nametable cell `NT[b][n[9:0]]` (rule R67). -/
def ntIndex (m : Mirroring) (a : PpuAddr) : Nat := 1024 * (ntBank m a).toNat + (a.extractLsb' 0 10).toNat

/-- `PalIndex` (rule R69): the low 5 bits, with the four aliasing pairs. -/
def palIndex (a : PpuAddr) : Nat :=
  let i := (a.extractLsb' 0 5).toNat
  if i = 0x10 ∨ i = 0x14 ∨ i = 0x18 ∨ i = 0x1C then i - 0x10 else i

/-- The mask of a palette read (rule R70). -/
def palMask (mask : Byte) : Byte := if maskGray mask then 0x30#8 else 0x3F#8

end Sys2Proof.Machine
end

