-- ==== Sys2Proof/Machine/Flags.lean ====
section
/-! DEFINITION. The flags of rule R50 and who writes them: the three STATUS flags (rule R23), the write
toggle (rule R27), the pending interrupt and the frame signal (rules R42, R43). -/

namespace Sys2Proof.Machine

/-! ### STATUS (rule R23) -/

def statusSpOverflow (st : Byte) : Bool := st.getLsbD 5
def statusSpZeroHit (st : Byte) : Bool := st.getLsbD 6
def statusVblank (st : Byte) : Bool := st.getLsbD 7

/-- `STATUS.spOverflow <- 1` (rule R195). -/
def setSpOverflow (st : Byte) : Byte := st ||| 0x20#8

/-- `STATUS.spZeroHit <- 1` (rule R226). -/
def setSpZeroHit (st : Byte) : Byte := st ||| 0x40#8

/-- `STATUS.vblank <- 1` (rule R244). -/
def setVblank (st : Byte) : Byte := st ||| 0x80#8

/-- `STATUS.vblank <- 0` (rule R123). -/
def clearVblank (st : Byte) : Byte := st &&& 0x7F#8

/-- The three flags cleared together (rule R243). -/
def clearStatusFlags (st : Byte) : Byte := st &&& 0x1F#8

/-- The byte a status read returns (rule R123): the flags over the low five bits of `low`. -/
def statusComposite (st low : Byte) : Byte := (st &&& 0xE0#8) ||| (low &&& 0x1F#8)

namespace State

/-! ### The fields of the current CTRL and MASK -/

def showBg (s : State) : Bool := maskShowBg s.bank.mask
def showSp (s : State) : Bool := maskShowSp s.bank.mask
def renderingEnabled (s : State) : Bool := maskRenderingEnabled s.bank.mask

/-- The byte whose low bits a status read shows (rule R123, decision D7). -/
def statusLow (s : State) : Byte :=
  match s.statusLowSource with
  | .lastReturned => s.bank.lastDataOut
  | .readBuffer => s.bank.readBuffer

/-- `VblankStart` (rule R244): the flag, and the interrupt request when it is enabled at this instant. It is
the block's one interrupt source (rule R273). -/
def vblankStart (s : State) : State :=
  { s with bank.status := setVblank s.bank.status
           timing.nmiPending := s.timing.nmiPending || ctrlNmiEnable s.bank.ctrl }

/-- The request is consumed (rule R256). -/
def clearNmi (s : State) : State := { s with timing.nmiPending := false }

/-- The frame-complete signal is cleared (rule R257). -/
def clearFrameComplete (s : State) : State := { s with timing.frameComplete := false }

/-- A status read's effect on the flags (rule R123): `vblank` and `w` are cleared. -/
def clearVblankAndToggle (s : State) : State :=
  { s with bank.status := clearVblank s.bank.status, bank.w := false }

end State

end Sys2Proof.Machine
end

