-- ==== Sys2Proof/Machine/Ops.lean ====
section
/-! DEFINITION. The named operations over memories, frame buffers, the mapper and the driver's side: every
meaning is written over these. The block raises no exception and has no trap entry or return (rules R270,
R279), so there is none here; its one interrupt request is `State.vblankStart` of Flags.lean, and its one
stop is `State.withMapper` below. -/

namespace Sys2Proof.Machine

/-! ### Sparse cells: the form of memories and frame buffers -/

/-- The value listed at index `a`. -/
def Cells.lookup {α : Type} : List (Nat × α) → Nat → Option α
  | [], _ => none
  | (k, x) :: rest, a => if k = a then some x else Cells.lookup rest a

/-- `a <- x`, indices kept strictly rising. -/
def Cells.write {α : Type} : List (Nat × α) → Nat → α → List (Nat × α)
  | [], a, x => [(a, x)]
  | (k, y) :: rest, a, x =>
    if a < k then (a, x) :: (k, y) :: rest
    else if a = k then (a, x) :: rest
    else (k, y) :: Cells.write rest a x

/-- The canonical form: indices strictly rising, all below the memory's size. An unlisted index reads as
its power-on draw, which is no known value, so no entry can be equal to it (log entry 3). -/
abbrev Cells.wf {α : Type} (size : Nat) (m : List (Nat × α)) : Prop :=
  m.Pairwise (fun p q => p.1 < q.1) ∧ ∀ p ∈ m, p.1 < size

/-- The canonical form of a memory of `size` bytes. -/
abbrev Memory.wf (size : Nat) (m : Memory) : Prop := Cells.wf size m

/-- One byte of a memory; a cell never written since power-on holds a draw (rule R302). -/
def Memory.read (r : Region) (m : Memory) (k : Nat) : Byte := (Cells.lookup m k).getD (Config.powerOnByte r k)

/-- One byte stored. -/
def Memory.write (m : Memory) (k : Nat) (b : Byte) : Memory := Cells.write m k b

/-- The index of pixel (x, y) of a frame buffer (rule R44). -/
def pixelIndex (x y : Nat) : Nat := 256 * y + x

/-- The canonical form of a frame buffer (256 × 240 pixels). -/
abbrev Frame.wf (f : Frame) : Prop := Cells.wf 61440 f.pixels

/-- Pixel (x, y) of a frame buffer. -/
def Frame.read (f : Frame) (x y : Nat) : Colour :=
  (Cells.lookup f.pixels (pixelIndex x y)).getD (Config.powerOnPixel f.origin (pixelIndex x y))

/-- Pixel (x, y) stored. -/
def Frame.write (f : Frame) (x y : Nat) (c : Colour) : Frame :=
  { f with pixels := Cells.write f.pixels (pixelIndex x y) c }

/-! ### The mapper (rule R282) -/

/-- The answer to the next `interceptRead(a)`: an input of the step (decision D43). -/
def Mapper.readAnswer (m : Mapper) (a : PpuAddr) : Option Byte :=
  match m.readAnswers with
  | r :: _ => r
  | [] => Config.interceptRead m.asks a

/-- The answer to the next `interceptWrite(a, value)`. -/
def Mapper.writeAnswer (m : Mapper) (a : PpuAddr) (value : Byte) : Bool :=
  match m.writeAnswers with
  | r :: _ => r
  | [] => Config.interceptWrite m.asks a value

/-- The mapper after it answered an `interceptRead`. -/
def Mapper.afterRead (m : Mapper) : Mapper := { m with readAnswers := m.readAnswers.tail, asks := m.asks + 1 }

/-- The mapper after it answered `k` `interceptRead`s. -/
def Mapper.afterReads (m : Mapper) (k : Nat) : Mapper :=
  { m with readAnswers := m.readAnswers.drop k, asks := m.asks + k }

/-- The mapper after it answered an `interceptWrite`. -/
def Mapper.afterWrite (m : Mapper) : Mapper := { m with writeAnswers := m.writeAnswers.tail, asks := m.asks + 1 }

/-- An internal access of the nametable range asks `mirroringMode()` (rule R282; log entry 9). -/
def mirroringAsk (a : PpuAddr) : List MapperCall := if inNametableRange a then [.mirroringMode] else []

/-- How step reports a refused word (rule R272). -/
def refusalOf (w : HostWord) (e : DecodeError) : Refusal :=
  match e with
  | .reservedBits => .reservedBits w
  | .reservedOp => .reservedOp w
  | .nonzeroUnusedField => .nonzeroUnusedField w

namespace State

/-- A mapper call that has no answer (`emit`, rule R13): it is recorded in the trace. -/
def emit (s : State) (c : MapperCall) : State := { s with trace := c :: s.trace }

/-- An operation that needs a mapper: without one it has no step, and the machine is stuck (rules R84, R271,
decision D40). -/
def withMapper {α : Type} (s : State) (result : α) : Host.Outcome α Fault Refusal :=
  if s.mapper.attached then .next result else .fault .missingMapper

/-- Whether the work that leads from `s` to `s'` calls the mapper: each call is recorded in the trace. -/
def callsMapper (s s' : State) : Bool := s'.trace.length != s.trace.length

/-! ### The driver's side -/

/-- The byte a read returns to the driver (rule R287). -/
def giveBack (s : State) (b : Byte) : State := { s with returned := b :: s.returned }

/-- A read to which the spec gives no value (decisions D8, D10): the driver gets a draw, and the block's
state does not change. -/
def giveBackDraw (s : State) : State := ({ s with draws := s.draws + 1 } : State).giveBack (Config.portDraw s.draws)

/-- The oldest host operation word the driver has issued, and the machine without it. -/
def nextWord (s : State) : Option (HostWord × State) :=
  match s.driver with
  | [] => none
  | w :: rest => some (w, { s with driver := rest })

/-! ### Internal decode (rules R66 to R73) -/

/-- One OAM byte (rule R73). -/
def oamByte (s : State) (k : Nat) : Byte := Memory.read .oam s.mem.oam k

/-- `InternalRead` (rule R72). -/
def internalRead (s : State) (a : PpuAddr) : Byte :=
  if inPatternRange a then Memory.read .pt s.mem.pt (ptIndex a)
  else if inNametableRange a then Memory.read .nt s.mem.nt (ntIndex s.mapper.mirroring a)
  else Memory.read .pal s.mem.pal (palIndex a) &&& palMask s.bank.mask

/-- `InternalWrite` (rule R72). -/
def internalWrite (s : State) (a : PpuAddr) (val : Byte) : Memories :=
  if inPatternRange a then { s.mem with pt := s.mem.pt.write (ptIndex a) val }
  else if inNametableRange a then { s.mem with nt := s.mem.nt.write (ntIndex s.mapper.mirroring a) val }
  else { s.mem with pal := s.mem.pal.write (palIndex a) val }

/-! ### Access through the mapper (rules R63 to R65) -/

/-- The value of a read: the mapper's where it intercepts, else the internal cell's (rule R84). -/
def readValue (s : State) (a : PpuAddr) : Byte := (s.mapper.readAnswer a).getD (s.internalRead a)

/-- The mapper calls of a read, newest first; `notify` is false in the debug mode (rules R63, R65). -/
def readCalls (s : State) (notify : Bool) (a : PpuAddr) : List MapperCall :=
  match s.mapper.readAnswer a with
  | some _ => [.interceptRead a]
  | none => (if notify then [.onLatchUpdate a] else []) ++ mirroringAsk a ++ [.interceptRead a]

/-- The state after a read: only the mapper's side of it moves. -/
def afterRead (s : State) (notify : Bool) (a : PpuAddr) : State :=
  { s with mapper := s.mapper.afterRead, trace := s.readCalls notify a ++ s.trace }

/-- `MemRead(addr, 1)` (rule R63). -/
def memRead (s : State) (addr : BusAddr) : Byte × State :=
  (s.readValue (ppuAddr addr), s.afterRead true (ppuAddr addr))

/-- `MemReadDbg(addr, 1)` (rule R65): it never notifies. -/
def memReadDbg (s : State) (addr : BusAddr) : Byte × State :=
  (s.readValue (ppuAddr addr), s.afterRead false (ppuAddr addr))

/-- The mapper calls of a write, newest first (rule R64). -/
def writeCalls (s : State) (a : PpuAddr) (val : Byte) : List MapperCall :=
  match s.mapper.writeAnswer a val with
  | true => [.interceptWrite a val]
  | false => [.onLatchUpdate a] ++ mirroringAsk a ++ [.interceptWrite a val]

/-- `MemWrite(addr, 1, val)` (rule R64): the internal cell is written when the mapper declines. -/
def memWrite (s : State) (addr : BusAddr) (val : Byte) : State :=
  { s with
    mem := if s.mapper.writeAnswer (ppuAddr addr) val then s.mem else s.internalWrite (ppuAddr addr) val
    mapper := s.mapper.afterWrite
    trace := s.writeCalls (ppuAddr addr) val ++ s.trace }

/-! ### Cursors -/

/-- `IncV` (rule R111): modulo 2^15. -/
def incV (s : State) : State := { s with bank.v := s.bank.v + stride s.bank.ctrl }

/-- The OAM cursor moves on, modulo 256 (rules R30, R117, R125). -/
def incOamAddr (s : State) : State := { s with bank.oamAddr := s.bank.oamAddr + 1#8 }

end State

end Sys2Proof.Machine
end

