-- ==== Sys2Proof/Machine/DebugReads.lean ====
section
/-! DEFINITION. The debug-mode port reads, one meaning per row (rules R129 to R136): no latch, pointer,
flag or mapper call is touched (rule R95). -/

namespace Sys2Proof.Machine

/-- DBG_CTRL (rule R129). -/
def execDbgCtrl (s : State) : Host.Outcome State Fault Refusal := .next (s.giveBack s.bank.ctrl)

/-- DBG_MASK (rule R130). -/
def execDbgMask (s : State) : Host.Outcome State Fault Refusal := .next (s.giveBack s.bank.mask)

/-- DBG_STATUS (rule R131): the raw register; nothing is cleared. -/
def execDbgStatus (s : State) : Host.Outcome State Fault Refusal := .next (s.giveBack s.bank.status)

/-- DBG_OAMADDR (rule R132, decision D10): a draw. -/
def execDbgOamaddr (s : State) : Host.Outcome State Fault Refusal := .next s.giveBackDraw

/-- DBG_OAMDATA (rule R133, decision D10): the cursor does not move. -/
def execDbgOamdata (s : State) : Host.Outcome State Fault Refusal := .next s.giveBackDraw

/-- DBG_SCROLL (rule R134, decision D10). -/
def execDbgScroll (s : State) : Host.Outcome State Fault Refusal := .next s.giveBackDraw

/-- DBG_ADDR (rule R135, decision D10). -/
def execDbgAddr (s : State) : Host.Outcome State Fault Refusal := .next s.giveBackDraw

/-- DBG_DATA (rule R136, decision D10): no mapper call is made. -/
def execDbgData (s : State) : Host.Outcome State Fault Refusal := .next s.giveBackDraw

end Sys2Proof.Machine
end

