-- ==== Sys2Proof/Machine/HostControl.lean ====
section
/-! DEFINITION. RESET and the acknowledges (rules R255 to R257), and the block's outputs (rule R258). -/

namespace Sys2Proof.Machine

/-- RESET's effect (rule R255): every register and counter at the value of rule R49; memories and frame
buffers stay (rule R302); no mapper call is made and the mapper is not reset (rule R303). -/
def State.reinitialize (s : State) : State :=
  { s with bank := RegisterBank.reset, bg := Background.reset, sp := Sprites.reset, timing := Timing.reset }

/-- RESET (rule R255). -/
def execReset (s : State) : Host.Outcome State Fault Refusal := .next s.reinitialize

/-- ACK_NMI (rule R256). -/
def execAckNmi (s : State) : Host.Outcome State Fault Refusal := .next s.clearNmi

/-- ACK_FRAME (rule R257). -/
def execAckFrame (s : State) : Host.Outcome State Fault Refusal := .next s.clearFrameComplete

/-! ### Outputs (rule R258): observing them changes nothing -/

/-- The three outputs (rule R258): two levels and the published frame, as colour indices. -/
structure Outputs where
  nmiPending : Bool
  frameComplete : Bool
  front : Frame
deriving DecidableEq, Repr

/-- The outputs now. -/
def State.outputs (s : State) : Outputs :=
  { nmiPending := s.timing.nmiPending, frameComplete := s.timing.frameComplete, front := s.front }

/-- Pixel (x, y) of the published frame, as the consumer sees it: four channels (rules R44, R258, D50). -/
def State.frontColour (s : State) (x y : Nat) : Rgba := Config.systemPalette (s.front.read x y)

end Sys2Proof.Machine
end

