-- ==== Sys2Proof/Machine/PortReads.lean ====
section
/-! DEFINITION. The normal-mode port reads, one meaning per row (rules R121 to R128). -/

namespace Sys2Proof.Machine

/-- RD_CTRL (rule R121, decision D8): a draw; nothing changes. -/
def execRdCtrl (s : State) : Host.Outcome State Fault Refusal := .next s.giveBackDraw

/-- RD_MASK (rule R122, decision D8). -/
def execRdMask (s : State) : Host.Outcome State Fault Refusal := .next s.giveBackDraw

/-- RD_STATUS (rule R123): the flags from before the clear, then `vblank` and `w` cleared. -/
def execRdStatus (s : State) : Host.Outcome State Fault Refusal :=
  .next (s.clearVblankAndToggle.giveBack (statusComposite s.bank.status s.statusLow))

/-- RD_OAMADDR (rule R124, decision D8): the cursor does not move. -/
def execRdOamaddr (s : State) : Host.Outcome State Fault Refusal := .next s.giveBackDraw

/-- RD_OAMDATA (rule R125): the byte at the cursor, then the cursor moves. -/
def execRdOamdata (s : State) : Host.Outcome State Fault Refusal :=
  .next (s.incOamAddr.giveBack (s.oamByte s.bank.oamAddr.toNat))

/-- RD_SCROLL (rule R126, decision D8): `w` is not changed. -/
def execRdScroll (s : State) : Host.Outcome State Fault Refusal := .next s.giveBackDraw

/-- RD_ADDR (rule R127, decision D8). -/
def execRdAddr (s : State) : Host.Outcome State Fault Refusal := .next s.giveBackDraw

/-- What a data-port read returns (rule R128): the fetched byte at once in the palette range, else the
byte the previous read fetched. -/
def dataResult (s : State) (fetched : Byte) : Byte :=
  if inPaletteRange s.bank.v then fetched else s.bank.readBuffer

/-- The mapper is notified when the increment carries bit 12 of `v` from 0 to 1 (rule R128). -/
def notifyIfA12Rises (oldV : CompositeAddr) (s : State) : State :=
  if !oldV.getLsbD 12 && s.bank.v.getLsbD 12 then s.emit .onScanlineBoundary else s

/-- The data-port read without the mapper guard (rule R128). -/
def readDataPort (s : State) : State :=
  let (fetched, s₁) := s.memRead (busOf s.bank.v)
  let result := dataResult s fetched
  let s₂ := ({ s₁ with bank.readBuffer := fetched, bank.lastDataOut := result } : State).incV
  (notifyIfA12Rises s.bank.v s₂).giveBack result

/-- RD_DATA (rule R128). -/
def execRdData (s : State) : Host.Outcome State Fault Refusal := s.withMapper (readDataPort s)

end Sys2Proof.Machine
end

