-- ==== Sys2Proof/Machine/PortWrites.lean ====
section
/-! DEFINITION. The normal-mode port writes, one meaning per row (rules R113 to R120). -/

namespace Sys2Proof.Machine

/-- WR_CTRL (rule R113): CTRL, and its nametable bits into `t`. -/
def execWrCtrl (d : Byte) (s : State) : Host.Outcome State Fault Refusal :=
  .next { s with bank.ctrl := d, bank.t := ctrlIntoT s.bank.t d }

/-- WR_MASK (rule R114). -/
def execWrMask (d : Byte) (s : State) : Host.Outcome State Fault Refusal := .next { s with bank.mask := d }

/-- WR_STATUS (rule R115, decision D9): ignored. -/
def execWrStatus (_d : Byte) (s : State) : Host.Outcome State Fault Refusal := .next s

/-- WR_OAMADDR (rule R116). -/
def execWrOamaddr (d : Byte) (s : State) : Host.Outcome State Fault Refusal := .next { s with bank.oamAddr := d }

/-- WR_OAMDATA (rule R117). -/
def execWrOamdata (d : Byte) (s : State) : Host.Outcome State Fault Refusal :=
  .next ({ s with mem.oam := s.mem.oam.write s.bank.oamAddr.toNat d } : State).incOamAddr

/-- The first write of a scroll pair (rule R118). -/
def scrollFirst (d : Byte) (s : State) : State :=
  { s with bank.fineX := scrollFine d, bank.t := setCoarseX s.bank.t (scrollCoarse d), bank.w := true }

/-- The second write of a scroll pair (rule R118). -/
def scrollSecond (d : Byte) (s : State) : State :=
  { s with bank.t := setCoarseY (setFineY s.bank.t (scrollFine d)) (scrollCoarse d), bank.w := false }

/-- WR_SCROLL (rule R118). -/
def execWrScroll (d : Byte) (s : State) : Host.Outcome State Fault Refusal :=
  .next (if s.bank.w then scrollSecond d s else scrollFirst d s)

/-- The first write of an address pair (rule R119). -/
def addrFirst (d : Byte) (s : State) : State := { s with bank.t := addrHigh s.bank.t d, bank.w := true }

/-- The second write of an address pair (rule R119): `t`, and the full copy into `v`. -/
def addrSecond (d : Byte) (s : State) : State :=
  { s with bank.t := addrLow s.bank.t d, bank.v := addrLow s.bank.t d, bank.w := false }

/-- WR_ADDR (rule R119). -/
def execWrAddr (d : Byte) (s : State) : Host.Outcome State Fault Refusal :=
  .next (if s.bank.w then addrSecond d s else addrFirst d s)

/-- WR_DATA (rule R120): the write at `v`, then `IncV`; it never notifies `onScanlineBoundary`. -/
def execWrData (d : Byte) (s : State) : Host.Outcome State Fault Refusal :=
  s.withMapper (s.memWrite (busOf s.bank.v) d).incV

end Sys2Proof.Machine
end

