-- ==== Sys2Proof/Machine/Background.lean ====
section
/-! DEFINITION. The background tile fetch pipeline, step B of a TICK (rules R160 to R176). -/

namespace Sys2Proof.Machine

/-- The qualifying dots 2 … 257 and 321 … 337 (rule R160). -/
def qualifyingDot (dot : Nat) : Bool := (2 ≤ dot && dot ≤ 257) || (321 ≤ dot && dot ≤ 337)

/-- The four shifters moved left by one; a zero enters bit 0 (rule R162). -/
def Background.shift (b : Background) : Background :=
  { b with patLo := b.patLo <<< 1, patHi := b.patHi <<< 1, attrLo := b.attrLo <<< 1, attrHi := b.attrHi <<< 1 }

/-- An attribute bit widened to the 8 bits of a shifter's low byte (rule R164, decision D23). -/
def widenAttr (b : Bool) : BitVec 16 := if b then 0x00FF#16 else 0x0000#16

/-- `LoadBg` (rule R164): the low bytes from the latches; the high bytes are kept. -/
def Background.load (b : Background) : Background :=
  { b with
    patLo := (b.patLo &&& 0xFF00#16) ||| b.nextLo.setWidth 16
    patHi := (b.patHi &&& 0xFF00#16) ||| b.nextHi.setWidth 16
    attrLo := (b.attrLo &&& 0xFF00#16) ||| widenAttr (b.nextAttr.getLsbD 0)
    attrHi := (b.attrHi &&& 0xFF00#16) ||| widenAttr (b.nextAttr.getLsbD 1) }

/-- `IncX` on the address (rule R170). -/
def incCoarseX (v : CompositeAddr) : CompositeAddr :=
  if coarseX v = 31#5 then setNtX (setCoarseX v 0#5) (~~~ntX v) else setCoarseX v (coarseX v + 1#5)

/-- `IncY` on the address (rules R171, R172). -/
def incFineY (v : CompositeAddr) : CompositeAddr :=
  if fineY v ≠ 7#3 then setFineY v (fineY v + 1#3)
  else if coarseY v = 29#5 then setNtY (setCoarseY (setFineY v 0#3) 0#5) (~~~ntY v)
  else if coarseY v = 31#5 then setCoarseY (setFineY v 0#3) 0#5
  else setCoarseY (setFineY v 0#3) (coarseY v + 1#5)

/-- The horizontal transfer from `t` (rule R173). -/
def copyHorizontal (v t : CompositeAddr) : CompositeAddr := setCoarseX (setNtX v (ntX t)) (coarseX t)

/-- The vertical transfer from `t` (rule R175). -/
def copyVertical (v t : CompositeAddr) : CompositeAddr :=
  setCoarseY (setNtY (setFineY v (fineY t)) (ntY t)) (coarseY t)

/-- The address of the tile id (rule R165). -/
def tileIdAddr (v : CompositeAddr) : BusAddr := 0x2000#16 ||| (busOf v &&& 0x0FFF#16)

/-- The address of the attribute byte (rule R166, decision D23). -/
def attrAddr (v : CompositeAddr) : BusAddr :=
  0x23C0#16 ||| ((ntY v).setWidth 16 <<< 11) ||| ((ntX v).setWidth 16 <<< 10)
    ||| (((coarseY v).setWidth 16 >>> 2) <<< 3) ||| ((coarseX v).setWidth 16 >>> 2)

/-- The 2-bit quadrant of an attribute byte (rule R167, decision D23). -/
def attrQuadrant (v : CompositeAddr) (at0 : Byte) : BitVec 2 :=
  let at1 := if (coarseY v).getLsbD 1 then at0 >>> 4 else at0
  let at2 := if (coarseX v).getLsbD 1 then at1 >>> 2 else at1
  at2.extractLsb' 0 2

/-- The address of the low bitplane (rule R168, decision D23); the high bitplane is 8 above (rule R169). -/
def bgPatternAddr (bank : BitVec 1) (id : Byte) (fy : BitVec 3) : BusAddr :=
  (bank.setWidth 16 <<< 12) + (id.setWidth 16 <<< 4) + fy.setWidth 16

namespace State

/-- The low bitplane's address now: CTRL, the latch and `v` are read at this dot (rule R169). -/
def bgPlaneAddr (s : State) : BusAddr := bgPatternAddr (ctrlBgBank s.bank.ctrl) s.bg.nextId (fineY s.bank.v)

/-- The shift of rule R162, when `showBg`. -/
def shiftBg (s : State) : State := if s.showBg then { s with bg := s.bg.shift } else s

/-- `LoadBg` (rule R164); no enable gates it (decision D21). -/
def loadBg (s : State) : State := { s with bg := s.bg.load }

/-- Phase 0 (rule R165): the tile id. -/
def fetchTileId (s : State) : State :=
  let (b, s₁) := s.memRead (tileIdAddr s.bank.v)
  { s₁ with bg.nextId := b }

/-- Phase 2 (rules R166, R167): the attribute byte's quadrant. -/
def fetchAttr (s : State) : State :=
  let (b, s₁) := s.memRead (attrAddr s.bank.v)
  { s₁ with bg.nextAttr := attrQuadrant s.bank.v b }

/-- Phase 4 (rule R168): the low bitplane. -/
def fetchLo (s : State) : State :=
  let (b, s₁) := s.memRead s.bgPlaneAddr
  { s₁ with bg.nextLo := b }

/-- Phase 6 (rule R169): the high bitplane. -/
def fetchHi (s : State) : State :=
  let (b, s₁) := s.memRead (s.bgPlaneAddr + 8#16)
  { s₁ with bg.nextHi := b }

/-- Phase 7 (rule R170, decision D20). -/
def incX (s : State) : State := if s.renderingEnabled then { s with bank.v := incCoarseX s.bank.v } else s

/-- Dot 256 (rule R171, decision D20). -/
def incY (s : State) : State := if s.renderingEnabled then { s with bank.v := incFineY s.bank.v } else s

/-- Dot 257 (rule R173, decision D20). -/
def transferX (s : State) : State :=
  if s.renderingEnabled then { s with bank.v := copyHorizontal s.bank.v s.bank.t } else s

/-- Pre-render dots 280 … 304 (rule R175, decision D20). -/
def transferY (s : State) : State :=
  if s.renderingEnabled then { s with bank.v := copyVertical s.bank.v s.bank.t } else s

/-- Dots 338 and 340 (rule R174, decision D24): the read is made and its value discarded. -/
def dummyFetch (s : State) : State := (s.memRead (tileIdAddr s.bank.v)).2

/-- The phase action of a qualifying dot (rule R163). -/
def phaseAction (s : State) : State :=
  match (s.timing.dot - 1) % 8 with
  | 0 => s.loadBg.fetchTileId
  | 2 => s.fetchAttr
  | 4 => s.fetchLo
  | 6 => s.fetchHi
  | 7 => s.incX
  | _ => s

/-- The single-dot actions (rules R171 to R175); at most one applies at a dot (rule R161). -/
def singleDotAction (s : State) : State :=
  if s.timing.dot = 256 then s.incY
  else if s.timing.dot = 257 then s.loadBg.transferX
  else if s.timing.dot = 338 ∨ s.timing.dot = 340 then s.dummyFetch
  else if s.timing.scanline = -1 ∧ 280 ≤ s.timing.dot ∧ s.timing.dot ≤ 304 then s.transferY
  else s

/-- The shift and the phase action of a qualifying dot (rule R161, items 1 and 2). -/
def shiftAndPhase (s : State) : State := if qualifyingDot s.timing.dot then s.shiftBg.phaseAction else s

/-- A rendering scanline, −1 … 239 (rules R16, R160). -/
def onRenderingLine (s : State) : Bool := -1 ≤ s.timing.scanline && s.timing.scanline ≤ 239

/-- `BackgroundStep` (rules R160, R161, decision D22). -/
def backgroundStep (s : State) : State := if s.onRenderingLine then s.shiftAndPhase.singleDotAction else s

end State

end Sys2Proof.Machine
end

