-- ==== Sys2Proof/Machine/Sprites.lean ====
section
/-! DEFINITION. The sprite attribute table scanner, the sprite pattern fetch and the sprite shift/delay
pipeline, step S of a TICK (rules R190 to R205). -/

namespace Sys2Proof.Machine

/-- The eight slot numbers, in increasing order. -/
def slotNumbers : List (Fin 8) := [0, 1, 2, 3, 4, 5, 6, 7]

/-- The 64 OAM entry numbers, in index order (rule R193). -/
def entryNumbers : List Nat := List.range 64

/-! ### Evaluation -/

/-- What one evaluation builds: the visible list, and whether a ninth entry qualified. -/
structure Scan where
  sp : Sprites
  overflow : Bool
deriving DecidableEq, Repr

/-- A slot after the clear (rule R191, decision D25): sentinel bytes; the shifters are not cleared. -/
def Slot.clear (sl : Slot) : Slot := { sl with y := 0xFF#8, id := 0xFF#8, attr := 0xFF#8, x := 0xFF#8 }

/-- The cleared list that a scan starts from (rule R191). -/
def Sprites.clear (sp : Sprites) : Sprites :=
  { slot := Vector.ofFn fun i => sp.slot[i].clear, count := 0, zeroPossible := false }

/-- The sprite height (rules R21, R192). -/
def spriteHeight (ctrl : Byte) : Int := if ctrlSpSize16 ctrl then 16 else 8

/-- Qualification (rule R192), on integers: `0 <= next − Y < h`. -/
def qualifies (next : Int) (h : Int) (y : Byte) : Bool := 0 ≤ next - (y.toNat : Int) && next - (y.toNat : Int) < h

/-- An OAM entry copied into a slot (rules R193, R196); the slot's shifters stay. -/
def Slot.copyEntry (sl : Slot) (y id attr x : Byte) : Slot := { sl with y := y, id := id, attr := attr, x := x }

/-- One entry of the scan (rules R193 to R195). -/
def State.scanEntry (s : State) (acc : Scan) (n : Nat) : Scan :=
  if qualifies (s.timing.scanline + 1) (spriteHeight s.bank.ctrl) (s.oamByte (4 * n)) then
    if h : acc.sp.count < 8 then
      { acc with
        sp := { slot := acc.sp.slot.set acc.sp.count
                          (acc.sp.slot[acc.sp.count].copyEntry (s.oamByte (4 * n)) (s.oamByte (4 * n + 1))
                            (s.oamByte (4 * n + 2)) (s.oamByte (4 * n + 3)))
                count := acc.sp.count + 1
                zeroPossible := acc.sp.zeroPossible || n == 0 } }
    else { acc with overflow := true }
  else acc

/-- The whole scan of the 64 entries (rule R193). -/
def State.scan (s : State) : Scan := entryNumbers.foldl s.scanEntry { sp := s.sp.clear, overflow := false }

/-- Evaluation, at dot 320 (rules R190 to R196). Overflow is only ever set here (decision D30). -/
def State.evaluateSprites (s : State) : State :=
  { s with sp := s.scan.sp
           bank.status := if s.scan.overflow then setSpOverflow s.bank.status else s.bank.status }

/-! ### Pattern fetch -/

/-- The row of a slot (rule R198), on integers. -/
def spriteRow (scanline : Int) (sl : Slot) : Int := scanline + 1 - (sl.y.toNat : Int)

/-- `row & 7`, then flipped when `vFlip` (rules R199, R200). -/
def spriteFine (row : Int) (attr : Byte) : BitVec 3 :=
  let r := BitVec.ofInt 3 row
  if attrVFlip attr then 7#3 - r else r

/-- The 8×8 address (rule R199, decision D26). -/
def spriteAddr8 (bank : BitVec 1) (row : Int) (sl : Slot) : BusAddr :=
  (bank.setWidth 16 <<< 12) ||| (sl.id.setWidth 16 <<< 4) ||| (spriteFine row sl.attr).setWidth 16

/-- Which half of an 8×16 sprite a row is in (rule R200): 0 upper, 1 lower, exchanged by `vFlip`. -/
def spriteHalf (row : Int) (attr : Byte) : BitVec 1 :=
  let half : BitVec 1 := if BitVec.ofInt 4 row < 8#4 then 0#1 else 1#1
  if attrVFlip attr then 1#1 - half else half

/-- The 8×16 address (rule R200, decision D26): the tile's own bit 0 is the bank. -/
def spriteAddr16 (row : Int) (sl : Slot) : BusAddr :=
  let bank := bitField sl.id 0
  let top : BusAddr := (sl.id &&& 0xFE#8).setWidth 16
  (bank.setWidth 16 <<< 12) ||| ((top + (spriteHalf row sl.attr).setWidth 16) <<< 4)
    ||| (spriteFine row sl.attr).setWidth 16

/-- The address of a slot's low bitplane (rules R199, R200). -/
def State.spriteAddr (s : State) (sl : Slot) : BusAddr :=
  if ctrlSpSize16 s.bank.ctrl then spriteAddr16 (spriteRow s.timing.scanline sl) sl
  else spriteAddr8 (ctrlSpBank s.bank.ctrl) (spriteRow s.timing.scanline sl) sl

/-- Horizontal flip (rule R202). -/
def flipRow (attr b : Byte) : Byte := if attrHFlip attr then rev8 b else b

/-- The fetch of one visible slot (rules R197 to R203): low plane, then high plane, then the load. -/
def State.fetchSlot (s : State) (i : Fin 8) : State :=
  if i.val < s.sp.count then
    let sl := s.sp.slot[i]
    let (lo, s₁) := s.memRead (s.spriteAddr sl)
    let (hi, s₂) := s₁.memRead (s.spriteAddr sl + 8#16)
    { s₂ with sp.slot := s.sp.slot.set i { sl with lo := flipRow sl.attr lo, hi := flipRow sl.attr hi } }
  else s

/-- The sprite fetch of dot 340 (rule R197), slots in increasing order. -/
def State.fetchSprites (s : State) : State := slotNumbers.foldl State.fetchSlot s

/-! ### Shift and delay -/

/-- One dot of one slot (rule R204): the delay counts down, or the shifters shift. -/
def Slot.advance (sl : Slot) : Slot :=
  if sl.x ≠ 0#8 then { sl with x := sl.x - 1#8 } else { sl with lo := sl.lo <<< 1, hi := sl.hi <<< 1 }

/-- The visible slots move; the others do not (rules R204, R205). -/
def Sprites.advance (sp : Sprites) : Sprites :=
  { sp with slot := Vector.ofFn fun i => if i.val < sp.count then sp.slot[i].advance else sp.slot[i] }

/-- The shift/delay step, when `showSp` (rule R204, decision D28). -/
def State.advanceSprites (s : State) : State := if s.showSp then { s with sp := s.sp.advance } else s

/-- `SpriteStep` (rule R240): dots 1 … 257, 320 and 340 of the rendering scanlines. -/
def State.spriteStep (s : State) : State :=
  if s.onRenderingLine then
    if 1 ≤ s.timing.dot ∧ s.timing.dot ≤ 257 then s.advanceSprites
    else if s.timing.dot = 320 then s.evaluateSprites
    else if s.timing.dot = 340 then s.fetchSprites
    else s
  else s

end Sys2Proof.Machine
end

