-- ==== Sys2Proof/Machine/Compositor.lean ====
section
/-! DEFINITION. The pixel compositor, step C of a TICK (rules R220 to R231). -/

namespace Sys2Proof.Machine

/-- A background pixel and its palette (rule R221). -/
structure BgPixel where
  pixel : BitVec 2
  pal : BitVec 2
deriving DecidableEq, Repr

/-- A sprite pixel, its palette 4 … 7, whether it is in front, and the slot it came from (rule R222). -/
structure FgPixel where
  pixel : BitVec 2
  pal : BitVec 3
  front : Bool
  slot : Option (Fin 8)
deriving DecidableEq, Repr

/-- The pixel and palette that go on to the colour lookup (rule R224). -/
structure OutPixel where
  pixel : BitVec 2
  pal : BitVec 3
deriving DecidableEq, Repr

/-- The field `{hi[i], lo[i]}` of two words (rules R221, R222). -/
def bitPair {n : Nat} (hi lo : BitVec n) (i : Nat) : BitVec 2 := bitField hi i ++ bitField lo i

/-- The transparent background pixel (rule R221). -/
def BgPixel.transparent : BgPixel := { pixel := 0#2, pal := 0#2 }

/-- No sprite pixel (rule R222). -/
def FgPixel.transparent : FgPixel := { pixel := 0#2, pal := 0#3, front := false, slot := none }

/-- A slot's current pixel: bit 7 of its shifters (rule R222). -/
def Slot.pixel (sl : Slot) : BitVec 2 := bitPair sl.hi sl.lo 7

/-- A slot that shows an opaque pixel now (rule R222): visible, its delay 0, its pixel not 0. -/
def Sprites.shows (sp : Sprites) (i : Fin 8) : Bool :=
  i.val < sp.count && sp.slot[i].x == 0#8 && sp.slot[i].pixel != 0#2

/-- The pixel of slot i (rules R222, R223, decision D27). -/
def Sprites.pixelOf (sp : Sprites) (i : Fin 8) : FgPixel :=
  { pixel := sp.slot[i].pixel
    pal := 1#1 ++ attrSpPal sp.slot[i].attr
    front := !attrBehindBg sp.slot[i].attr
    slot := some i }

/-- The lowest-index slot that shows an opaque pixel (rule R222, decision D29). -/
def Sprites.select (sp : Sprites) : FgPixel :=
  match slotNumbers.find? sp.shows with
  | some i => sp.pixelOf i
  | none => FgPixel.transparent

/-- The multiplexer (rules R224, R225, R231). -/
def compose (bg : BgPixel) (fg : FgPixel) : OutPixel :=
  if bg.pixel = 0#2 ∧ fg.pixel = 0#2 then { pixel := 0#2, pal := 0#3 }
  else if bg.pixel = 0#2 then { pixel := fg.pixel, pal := fg.pal }
  else if fg.pixel = 0#2 then { pixel := bg.pixel, pal := bg.pal.setWidth 3 }
  else if fg.front then { pixel := fg.pixel, pal := fg.pal }
  else { pixel := bg.pixel, pal := bg.pal.setWidth 3 }

/-- `InHitWindow` (rule R227). -/
def inHitWindow (mask : Byte) (dot : Nat) : Bool :=
  if !maskShowBgLeft mask && !maskShowSpLeft mask then 9 ≤ dot && dot < 258 else 1 ≤ dot && dot < 258

/-- The palette address of a pixel (rule R228). -/
def colourAddr (p : OutPixel) : BusAddr := 0x3F00#16 + (p.pal.setWidth 16 <<< 2) + p.pixel.setWidth 16

namespace State

/-- The background layer at this dot (rule R221). -/
def bgPixel (s : State) : BgPixel :=
  if s.showBg && (maskShowBgLeft s.bank.mask || 9 ≤ s.timing.dot) then
    let b := 15 - s.bank.fineX.toNat
    { pixel := bitPair s.bg.patHi s.bg.patLo b, pal := bitPair s.bg.attrHi s.bg.attrLo b }
  else BgPixel.transparent

/-- The sprite layer at this dot (rule R222). -/
def fgPixel (s : State) : FgPixel :=
  if s.showSp && (maskShowSpLeft s.bank.mask || 9 ≤ s.timing.dot) then s.sp.select else FgPixel.transparent

/-- The sprite-zero hit (rules R226, R227, decision D33). -/
def spriteZeroHit (s : State) : Bool :=
  s.bgPixel.pixel != 0#2 && s.fgPixel.pixel != 0#2 && s.fgPixel.slot == some 0 && s.sp.zeroPossible
    && s.showBg && s.showSp && inHitWindow s.bank.mask s.timing.dot

/-- The hit sets its flag; nothing here clears it (rule R226). -/
def noteZeroHit (s : State) : State :=
  if s.spriteZeroHit then { s with bank.status := setSpZeroHit s.bank.status } else s

/-- The pixel of this dot (rule R224). -/
def outPixel (s : State) : OutPixel := compose s.bgPixel s.fgPixel

/-- The colour lookup and the frame write of dots 1 … 256 (rules R228 to R230): column `dot − 1`, row
`scanline`. -/
def drawPixel (s : State) : State :=
  if s.timing.dot ≤ 256 then
    let (c, s₁) := s.memRead (colourAddr s.outPixel)
    { s₁ with back := s.back.write (s.timing.dot - 1) s.timing.scanline.toNat (c.setWidth 6) }
  else s

/-- The compositor's window (rule R220, decision D31). -/
def inCompositorWindow (s : State) : Bool :=
  0 ≤ s.timing.scanline && s.timing.scanline ≤ 239 && 1 ≤ s.timing.dot && s.timing.dot ≤ 257

/-- `CompositorStep` (rules R220 to R229). -/
def compositorStep (s : State) : State := if s.inCompositorWindow then s.noteZeroHit.drawPixel else s

end State

end Sys2Proof.Machine
end

