-- ==== Sys2Proof/Machine/Timing.lean ====
section
/-! DEFINITION. The raster timing engine and the TICK operation (rules R240 to R252). -/

namespace Sys2Proof.Machine

/-- All sixteen sprite shifters zeroed (rule R243). -/
def Sprites.clearShifters (sp : Sprites) : Sprites :=
  { sp with slot := Vector.ofFn fun i => { sp.slot[i] with lo := 0#8, hi := 0#8 } }

namespace State

/-- `OddFrameSkip` (rule R242, decision D36). -/
def oddFrameSkip (s : State) : State :=
  if s.timing.scanline = 0 ∧ s.timing.dot = 0 ∧ s.timing.oddFrame = true ∧ s.renderingEnabled = true then
    { s with timing.dot := 1 }
  else s

/-- `PreRenderClear` (rule R243). -/
def preRenderClear (s : State) : State :=
  { s with bank.status := clearStatusFlags s.bank.status, sp := s.sp.clearShifters }

/-- The fixed-dot events (rules R243 to R245, decision D42); at most one happens at a dot. -/
def timingEvents (s : State) : State :=
  if s.timing.scanline = -1 ∧ s.timing.dot = 1 then s.preRenderClear
  else if s.timing.scanline = 241 ∧ s.timing.dot = 1 then s.vblankStart
  else if s.timing.dot = 260 ∧ s.onRenderingLine = true ∧ s.renderingEnabled = true then s.emit .onScanlineBoundary
  else s

/-- `FrameWrap` and `Publish` (rules R247, R248, decision D35): `front <- back`, whole. -/
def frameWrap (s : State) : State :=
  { s with timing.scanline := -1, timing.frameComplete := true, timing.oddFrame := !s.timing.oddFrame, front := s.back }

/-- The next scanline, or the frame wrap after scanline 260 (rules R246, R247). -/
def nextScanline (s : State) : State :=
  if s.timing.scanline + 1 > 260 then s.frameWrap else { s with timing.scanline := s.timing.scanline + 1 }

/-- `Advance` (rule R246). -/
def advance (s : State) : State :=
  if s.timing.dot + 1 > 340 then ({ s with timing.dot := 0 } : State).nextScanline
  else { s with timing.dot := s.timing.dot + 1 }

/-- One dot (rules R240, R241): the skip, then B, S, C, the fixed-dot events and the advance. -/
def tick (s : State) : State :=
  s.oddFrameSkip.backgroundStep.spriteStep.compositorStep.timingEvents.advance

end State

/-- TICK (rule R240). It needs a mapper when it fetches, reads a palette colour or notifies, and runs without one
otherwise (rule R271, decision D40); rule R305's duty of the driver is `asksForMapper` of Safety.lean (log entry 16). -/
def execTick (s : State) : Host.Outcome State Fault Refusal :=
  if s.callsMapper s.tick then s.withMapper s.tick else .next s.tick

end Sys2Proof.Machine
end

