-- ==== Sys2Proof/Machine/Dispatch.lean ====
section
/-! DEFINITION. The one match from a host operation to its meaning. -/

namespace Sys2Proof.Machine

def exec (i : Instr) (s : State) : Host.Outcome State Fault Refusal :=
  match i with
  -- normal-mode writes
  | .wrCtrl d => Sys2Proof.Machine.execWrCtrl d s
  | .wrMask d => Sys2Proof.Machine.execWrMask d s
  | .wrStatus d => Sys2Proof.Machine.execWrStatus d s
  | .wrOamaddr d => Sys2Proof.Machine.execWrOamaddr d s
  | .wrOamdata d => Sys2Proof.Machine.execWrOamdata d s
  | .wrScroll d => Sys2Proof.Machine.execWrScroll d s
  | .wrAddr d => Sys2Proof.Machine.execWrAddr d s
  | .wrData d => Sys2Proof.Machine.execWrData d s
  -- normal-mode reads
  | .rdCtrl => Sys2Proof.Machine.execRdCtrl s
  | .rdMask => Sys2Proof.Machine.execRdMask s
  | .rdStatus => Sys2Proof.Machine.execRdStatus s
  | .rdOamaddr => Sys2Proof.Machine.execRdOamaddr s
  | .rdOamdata => Sys2Proof.Machine.execRdOamdata s
  | .rdScroll => Sys2Proof.Machine.execRdScroll s
  | .rdAddr => Sys2Proof.Machine.execRdAddr s
  | .rdData => Sys2Proof.Machine.execRdData s
  -- debug-mode reads
  | .dbgCtrl => Sys2Proof.Machine.execDbgCtrl s
  | .dbgMask => Sys2Proof.Machine.execDbgMask s
  | .dbgStatus => Sys2Proof.Machine.execDbgStatus s
  | .dbgOamaddr => Sys2Proof.Machine.execDbgOamaddr s
  | .dbgOamdata => Sys2Proof.Machine.execDbgOamdata s
  | .dbgScroll => Sys2Proof.Machine.execDbgScroll s
  | .dbgAddr => Sys2Proof.Machine.execDbgAddr s
  | .dbgData => Sys2Proof.Machine.execDbgData s
  -- the raster and host control
  | .tick => Sys2Proof.Machine.execTick s
  | .reset => Sys2Proof.Machine.execReset s
  | .ackNmi => Sys2Proof.Machine.execAckNmi s
  | .ackFrame => Sys2Proof.Machine.execAckFrame s

end Sys2Proof.Machine
end

