-- ==== Sys2Proof/Machine/Step.lean ====
section
/-! DEFINITION. One step: the oldest host operation word the driver has issued is decoded and executed
(rules R8, R77). -/

namespace Sys2Proof.Machine

/-- One step. With no word issued the block holds its state (rule R286; log entry 1). -/
def step (s : State) : Host.Outcome State Fault Refusal :=
  match s.nextWord with
  | none => .next s
  | some (w, s₁) =>
    match decode w with
    | .ok i => exec i s₁
    | .error e => .refused (refusalOf w e)

/-- `s` with the word `w` issued by the driver as the next one (log entry 1). -/
def State.withFetchWord (s : State) (_nbits w : Nat) : State := { s with driver := BitVec.ofNat 16 w :: s.driver }

end Sys2Proof.Machine
end

