-- ==== Sys2Proof/Machine/Introspection.lean ====
section
/-! DEFINITION. The debug tile queries (rule R284, decision D44). They are no host operations: no word asks
for one, and step never runs one. Each reads only through `MemReadDbg`. -/

namespace Sys2Proof.Machine

/-- An 8 × 8 array of colour indices, `q[col][row]` (rule R284). -/
abbrev Tile := List (List Colour)

/-- One value per index, the state threaded through in the order of the list. -/
def collect {α : Type} (f : Nat → State → α × State) : List Nat → State → List α × State
  | [], s => ([], s)
  | k :: rest, s =>
    let (x, s₁) := f k s
    let (xs, s₂) := collect f rest s₁
    (x :: xs, s₂)

/-- `TileRow` (rule R284): the 2-bit pixel at column c, row r of the tile at `base + (tileId << 4)`. -/
def tilePixel (base : BusAddr) (tileId : Byte) (r c : Nat) (s : State) : BitVec 2 × State :=
  let addr := base + (tileId.setWidth 16 <<< 4) + BitVec.ofNat 16 r
  let (lo, s₁) := s.memReadDbg addr
  let (hi, s₂) := s₁.memReadDbg (addr + 8#16)
  (bitField hi (7 - c) ++ bitField lo (7 - c), s₂)

/-- `Colour` (rule R284). -/
def debugColour (pal : BitVec 3) (px : BitVec 2) (s : State) : Colour × State :=
  let (c, s₁) := s.memReadDbg (0x3F00#16 + (pal.setWidth 16 <<< 2) + px.setWidth 16)
  (c.setWidth 6, s₁)

/-- One colour of a tile. -/
def tileColour (base : BusAddr) (tileId : Byte) (pal : BitVec 3) (c r : Nat) (s : State) : Colour × State :=
  let (px, s₁) := tilePixel base tileId r c s
  debugColour pal px s₁

/-- All 64 colours of a tile, column by column (log entry 10). -/
def tileColours (base : BusAddr) (tileId : Byte) (pal : BitVec 3) (s : State) : Tile × State :=
  collect (fun c => collect (fun r => tileColour base tileId pal c r) (List.range 8)) (List.range 8) s

/-- A query without a mapper is stuck, as every read is (rule R271). -/
def answerQuery (s : State) (q : Tile × State) : Host.Outcome (Tile × State) Fault Refusal :=
  s.withMapper q

/-- `PatternTile` (rule R284). -/
def patternTile (bank : BitVec 1) (tileId : Byte) (pal : BitVec 3) (s : State) :
    Host.Outcome (Tile × State) Fault Refusal :=
  answerQuery s (tileColours (bank.setWidth 16 <<< 12) tileId pal s)

/-- The address of a nametable query's tile id (rule R284). -/
def queryTileIdAddr (nt : BitVec 2) (col row : BitVec 5) : BusAddr :=
  0x2000#16 + (nt.setWidth 16 <<< 10) + (row.setWidth 16 <<< 5) + col.setWidth 16

/-- The address of a nametable query's attribute byte (rule R284). -/
def queryAttrAddr (nt : BitVec 2) (col row : BitVec 5) : BusAddr :=
  0x23C0#16 + (nt.setWidth 16 <<< 10) + ((row.setWidth 16 >>> 2) <<< 3) + (col.setWidth 16 >>> 2)

/-- The palette a nametable query takes from the attribute byte (rule R284). -/
def queryPalette (at0 : Byte) (col row : BitVec 5) : BitVec 2 :=
  (at0 >>> (((row &&& 2#5) <<< 1) ||| (col &&& 2#5)).toNat).extractLsb' 0 2

/-- `NametableTile` (rule R284), for `row` in 0 … 29. -/
def nametableTile (nt : BitVec 2) (col row : BitVec 5) (s : State) : Host.Outcome (Tile × State) Fault Refusal :=
  let (id, s₁) := s.memReadDbg (queryTileIdAddr nt col row)
  let (at0, s₂) := s₁.memReadDbg (queryAttrAddr nt col row)
  answerQuery s (tileColours ((ctrlBgBank s.bank.ctrl).setWidth 16 <<< 12) id ((queryPalette at0 col row).setWidth 3) s₂)

/-- The pattern base of a sprite query (rule R284). -/
def spriteQueryBase (ctrl id : Byte) : BusAddr :=
  (if ctrlSpSize16 ctrl then bitField id 0 else ctrlSpBank ctrl).setWidth 16 <<< 12

/-- The tile of a sprite query: the upper tile only in 8×16 mode (rule R284). -/
def spriteQueryTile (ctrl id : Byte) : Byte := if ctrlSpSize16 ctrl then id &&& 0xFE#8 else id

/-- `SpriteTile` (rule R284): flips are not applied. -/
def spriteTile (n : BitVec 6) (s : State) : Host.Outcome (Tile × State) Fault Refusal :=
  let id := s.oamByte (4 * n.toNat + 1)
  let attr := s.oamByte (4 * n.toNat + 2)
  answerQuery s (tileColours (spriteQueryBase s.bank.ctrl id) (spriteQueryTile s.bank.ctrl id) (1#1 ++ attrSpPal attr) s)

end Sys2Proof.Machine
end

