-- ==== Sys2Proof/Safety.lean ====
section
/-! DEFINITION. The terms claims are stated in: the invariant of the machine's state, the observation
of a run (rule R287), and the driver's duty to attach a mapper (rule R305). -/

namespace Sys2Proof.Machine

/-- What holds in every state the machine reaches: the ranges of rules R36, R39 and R40, the bits of STATUS
that nothing writes (R23), the link between `zeroPossible` and the list (R194), and the canonical form of
every memory and frame buffer (R31, R44, R45). -/
structure State.Inv (s : State) : Prop where
  scanline_ge : -1 ≤ s.timing.scanline
  scanline_le : s.timing.scanline ≤ 260
  dot_le : s.timing.dot ≤ 340
  status_low : s.bank.status &&& 0x1F#8 = 0#8
  count_le : s.sp.count ≤ 8
  zero_listed : s.sp.zeroPossible = true → 1 ≤ s.sp.count
  oam_wf : Memory.wf 256 s.mem.oam
  nt_wf : Memory.wf 2048 s.mem.nt
  pal_wf : Memory.wf 32 s.mem.pal
  pt_wf : Memory.wf 8192 s.mem.pt
  back_wf : s.back.wf
  front_wf : s.front.wf

/-- The state of the block proper (rule R20): what a debug read, a tile query and a draw leave unchanged. -/
structure BlockState where
  bank : RegisterBank
  mem : Memories
  bg : Background
  sp : Sprites
  timing : Timing
  back : Frame
  front : Frame
deriving DecidableEq, Repr

/-- The block's part of a machine state. -/
def State.block (s : State) : BlockState :=
  { bank := s.bank, mem := s.mem, bg := s.bg, sp := s.sp, timing := s.timing, back := s.back, front := s.front }

/-- The driver issues a sequence of words (rule R287): they join the queue, oldest first. -/
def State.issue (s : State) (ws : List HostWord) : State := { s with driver := s.driver ++ ws }

/-- The calls of normal-mode reads at these addresses, one after the other, oldest call first (rules R63, R277): each
read asks the mapper, and notifies the latch when it is declined. -/
def Mapper.transcript : Mapper → List BusAddr → List MapperCall
  | _, [] => []
  | m, addr :: rest =>
    let a := ppuAddr addr
    .interceptRead a ::
      ((match m.readAnswer a with
        | some _ => []
        | none => mirroringAsk a ++ [.onLatchUpdate a]) ++ m.afterRead.transcript rest)

/-- What the driver, the mapper and the frame consumer see of a run (rule R287), oldest first: the bytes of the
reads, the mapper calls, and the three outputs after each host operation. -/
structure Observation where
  bytes : List Byte
  calls : List MapperCall
  outputs : List Outputs
deriving DecidableEq, Repr

/-- The outputs after each of n steps, and the last state. A run that stops has none. -/
def runOutputs : Nat → State → Option (List Outputs × State)
  | 0, s => some ([], s)
  | n + 1, s =>
    match step s with
    | .next s₁ => (runOutputs n s₁).map fun (os, t) => (s₁.outputs :: os, t)
    | .fault _ => none
    | .refused _ => none

/-- The newest entries of a log that was `old` long, oldest first. -/
def newEntries {α : Type} (old : Nat) (log : List α) : List α := (log.take (log.length - old)).reverse

/-- The observation of the run that issues the words `ws` from the start state `s` (rule R287); a run that reaches a
refusal or a stuck state has none. -/
def observe (s : State) (ws : List HostWord) : Option Observation :=
  (runOutputs ws.length { s with driver := ws }).map fun (os, t) =>
    { bytes := newEntries s.returned.length t.returned, calls := newEntries s.trace.length t.trace, outputs := os }

/-! ### The driver's duty (rule R305) -/

/-- The operations before which the driver must have a mapper attached (rule R305): those of the data port, and every
TICK on a rendering scanline, the first one after reset among them, whether or not its dot makes a call. It is a duty
of the driver; which operations are stuck without a mapper is rule R271's (log entry 16). -/
def asksForMapper (i : Instr) (s : State) : Bool :=
  match i with
  | .wrData _ => true
  | .rdData => true
  | .tick => s.onRenderingLine
  | .wrCtrl _ | .wrMask _ | .wrStatus _ | .wrOamaddr _ | .wrOamdata _ | .wrScroll _ | .wrAddr _ => false
  | .rdCtrl | .rdMask | .rdStatus | .rdOamaddr | .rdOamdata | .rdScroll | .rdAddr => false
  | .dbgCtrl | .dbgMask | .dbgStatus | .dbgOamaddr | .dbgOamdata | .dbgScroll | .dbgAddr | .dbgData => false
  | .reset | .ackNmi | .ackFrame => false

/-- The driver keeps rule R305 when it issues operation `i` in state `s`. -/
def keepsMapperRule (i : Instr) (s : State) : Bool := s.mapper.attached || !asksForMapper i s

/-- The driver keeps rule R305 at every operation of the run that issues the words `ws` from `s`. -/
def runKeepsMapperRule : List HostWord → State → Bool
  | [], _ => true
  | w :: ws, s =>
    match decode w with
    | .error _ => true
    | .ok i =>
      keepsMapperRule i s &&
        match exec i { s with driver := ws } with
        | .next t => runKeepsMapperRule ws t
        | .fault _ => true
        | .refused _ => true

end Sys2Proof.Machine
end

