-- ==== Sys2Proof/Certificates/Slice0/Obligations.lean ====
section
/-! DEFINITION. The statements for the provers, and the few terms they share. Each docstring names the rule of
spec/ that the statement formalises, or the log entry where a clause is the model's own choice. -/

namespace Sys2Proof.Machine

/-! ### Terms the statements share -/

/-- `m'` is `m` with the byte `d` stored at cell `k` and every other cell as it was. -/
def StoredByte (r : Region) (m m' : Memory) (k : Nat) (d : Byte) : Prop :=
  Memory.read r m' k = d ∧ ∀ j, j ≠ k → Memory.read r m' j = Memory.read r m j

/-- A rendering scanline, −1 … 239 (rule R16). -/
def State.RenderingLine (s : State) : Prop := -1 ≤ s.timing.scanline ∧ s.timing.scanline ≤ 239

/-- A visible scanline, 0 … 239 (rule R16). -/
def State.VisibleLine (s : State) : Prop := 0 ≤ s.timing.scanline ∧ s.timing.scanline ≤ 239

/-- The condition of the odd-frame skip (rule R242). -/
def State.SkipsDot (s : State) : Prop :=
  s.timing.scanline = 0 ∧ s.timing.dot = 0 ∧ s.timing.oddFrame = true ∧
    (s.bank.mask.getLsbD 3 || s.bank.mask.getLsbD 4) = true

/-- The dot that a TICK processes: its own, but for the skip of rule R242. -/
def State.Processes (s : State) (d : Nat) : Prop := (s.SkipsDot → d = 1) ∧ (¬ s.SkipsDot → d = s.timing.dot)

/-- Rules R246, R247 and R248: `t` is past the dot `d` that a TICK of `s` processed. -/
def State.AdvancesPast (s t : State) (d : Nat) : Prop :=
  (d < 340 →
    t.timing.dot = d + 1 ∧ t.timing.scanline = s.timing.scanline ∧
    t.timing.frameComplete = s.timing.frameComplete ∧ t.timing.oddFrame = s.timing.oddFrame ∧ t.front = s.front) ∧
  (340 ≤ d → s.timing.scanline < 260 →
    t.timing.dot = 0 ∧ t.timing.scanline = s.timing.scanline + 1 ∧
    t.timing.frameComplete = s.timing.frameComplete ∧ t.timing.oddFrame = s.timing.oddFrame ∧ t.front = s.front) ∧
  (340 ≤ d → 260 ≤ s.timing.scanline →
    t.timing.dot = 0 ∧ t.timing.scanline = -1 ∧ t.timing.frameComplete = true ∧
    t.timing.oddFrame = !s.timing.oddFrame ∧ t.front = s.back ∧ t.back = s.back)

/-- The value of a read at `addr` that comes after `k` others of the same operation (rules R63, R84): the mapper's
byte where it intercepts, else the internal cell's. -/
def State.readAfter (s : State) (k : Nat) (addr : BusAddr) : Byte :=
  ((s.mapper.afterReads k).readAnswer (ppuAddr addr)).getD (s.internalRead (ppuAddr addr))

/-- The mapper declines the next `n` reads it is offered. -/
def Mapper.DeclinesReads (m : Mapper) (n : Nat) : Prop := ∃ rest, m.readAnswers = List.replicate n none ++ rest

/-- The state that the compositor of a TICK sees: after the background and the sprite step (rule R241). -/
def State.atCompositor (s : State) : State := s.backgroundStep.spriteStep

/-- The addresses that a TICK reads, in order (rules R165 to R169, R174, R197, R201, R228, R278), where no skip
happens: the background's fetch or dummy fetch, at dot 340 the two planes of each valid slot, and the pixel's colour. -/
def State.tickReads (s : State) : List BusAddr :=
  let d := s.timing.dot
  let plane := bgPatternAddr (bitField s.bank.ctrl 4) s.bg.nextId (fineY s.bank.v)
  let background : List BusAddr :=
    if (2 ≤ d ∧ d ≤ 257) ∨ (321 ≤ d ∧ d ≤ 337) then
      if (d - 1) % 8 = 0 then [tileIdAddr s.bank.v]
      else if (d - 1) % 8 = 2 then [attrAddr s.bank.v]
      else if (d - 1) % 8 = 4 then [plane]
      else if (d - 1) % 8 = 6 then [plane + 8#16]
      else []
    else if d = 338 ∨ d = 340 then [tileIdAddr s.bank.v]
    else []
  let sprites : List BusAddr :=
    if d = 340 then
      (List.finRange 8).flatMap fun i =>
        if i.val < s.sp.count then [s.spriteAddr s.sp.slot[i], s.spriteAddr s.sp.slot[i] + 8#16] else []
    else []
  let pixel : List BusAddr :=
    if 0 ≤ s.timing.scanline ∧ 1 ≤ d ∧ d ≤ 256 then
      [colourAddr (compose s.atCompositor.bgPixel s.atCompositor.fgPixel)]
    else []
  if -1 ≤ s.timing.scanline ∧ s.timing.scanline ≤ 239 then background ++ sprites ++ pixel else []

/-- A call by which the block offers the mapper a read. -/
def MapperCall.isRead : MapperCall → Bool
  | .interceptRead _ => true
  | .interceptWrite _ _ => false
  | .mirroringMode => false
  | .onScanlineBoundary => false
  | .onLatchUpdate _ => false

/-- Whether the TICK that processes dot `d` calls the mapper (rules R271, R177, R208, R228, R245): a background
fetch, a dummy fetch (and with it the sprite fetches of dot 340), a palette read, or the notification. -/
def State.TickCallsMapper (s : State) (d : Nat) : Prop :=
  (s.RenderingLine ∧
      ((((2 ≤ d ∧ d ≤ 257) ∨ (321 ≤ d ∧ d ≤ 337)) ∧
          ((d - 1) % 8 = 0 ∨ (d - 1) % 8 = 2 ∨ (d - 1) % 8 = 4 ∨ (d - 1) % 8 = 6)) ∨ d = 338 ∨ d = 340)) ∨
    (s.VisibleLine ∧ 1 ≤ d ∧ d ≤ 256) ∨
    (s.RenderingLine ∧ d = 260 ∧ (s.bank.mask.getLsbD 3 || s.bank.mask.getLsbD 4) = true)

/-- The OAM entries that qualify for the next scanline, in index order (rule R192). -/
def State.qualifyingEntries (s : State) : List Nat :=
  (List.range 64).filter fun n =>
    decide (0 ≤ s.timing.scanline + 1 - ((s.oamByte (4 * n)).toNat : Int) ∧
      s.timing.scanline + 1 - ((s.oamByte (4 * n)).toNat : Int) < (if s.bank.ctrl.getLsbD 5 then 16 else 8))

/-- The dots between an evaluation and the end of the sprite fetch that follows it: no rule shows a sprite shifter
there, and the fetch of dot 340 loads those of every valid slot (rules R190, R197, R203). -/
def State.BeforeSpriteFetch (s : State) : Prop := s.RenderingLine ∧ 321 ≤ s.timing.dot ∧ s.timing.dot ≤ 340

/-- Two machines that differ at most where rule R205 lets nothing be seen: in the slots that are not valid and, before
the sprite fetch, in the shifters of the valid ones. -/
def State.SameButUnseenSlots (s s' : State) : Prop :=
  s' = { s with sp := s'.sp } ∧ s'.sp.count = s.sp.count ∧ s'.sp.zeroPossible = s.sp.zeroPossible ∧
    ∀ i : Fin 8, i.val < s.sp.count →
      s'.sp.slot[i] = { s.sp.slot[i] with lo := s'.sp.slot[i].lo, hi := s'.sp.slot[i].hi } ∧
      (¬ s.BeforeSpriteFetch → s'.sp.slot[i] = s.sp.slot[i])

/-- The ports that return a draw: normal reads of ports 0, 1, 3, 5, 6 and debug reads of ports 3 to 7. -/
def drawPorts : List Instr :=
  [.rdCtrl, .rdMask, .rdOamaddr, .rdScroll, .rdAddr, .dbgOamaddr, .dbgOamdata, .dbgScroll, .dbgAddr, .dbgData]

/-- The colour a tile query shows at column `c`, row `r`, when the mapper intercepts nothing (rule R284). -/
def State.plainTileColour (s : State) (base : BusAddr) (id : Byte) (pal : BitVec 3) (c r : Nat) : Colour :=
  let lo := s.internalRead (ppuAddr (base + (id.setWidth 16 <<< 4) + BitVec.ofNat 16 r))
  let hi := s.internalRead (ppuAddr (base + (id.setWidth 16 <<< 4) + BitVec.ofNat 16 r + 8#16))
  let px : BitVec 2 := BitVec.ofBool (hi.getLsbD (7 - c)) ++ BitVec.ofBool (lo.getLsbD (7 - c))
  (s.internalRead (ppuAddr (0x3F00#16 + (pal.setWidth 16 <<< 2) + px.setWidth 16))).setWidth 6

end Sys2Proof.Machine

open Sys2Proof Sys2Proof.Machine

/-! ### Encoding and the step -/

/-- Every host operation is well-formed, the decoder reads it back from its own word, and a word that decodes is
the word of the operation it decodes to: no two words mean one operation (rules R94, R96). -/
def Obligations.DecodeEncodeAgree : Prop :=
  (∀ i : Instr, i.wellFormed = true ∧ decode (encode i) = .ok i) ∧
  (∀ (w : HostWord) (i : Instr), decode w = .ok i → encode i = w)

/-- Rule R94, every branch, on the bits of the word. -/
def Obligations.DecoderFollowsItsBranches : Prop :=
  ∀ w : HostWord,
    let op := w.extractLsb' 13 3
    let rsv := w.extractLsb' 11 2
    let port := w.extractLsb' 8 3
    let data := w.extractLsb' 0 8
    (rsv ≠ 0#2 → decode w = .error .reservedBits) ∧
    (rsv = 0#2 → op = 7#3 → decode w = .error .reservedOp) ∧
    (rsv = 0#2 → (op = 3#3 ∨ op = 4#3 ∨ op = 5#3 ∨ op = 6#3) → (port ≠ 0#3 ∨ data ≠ 0#8) →
      decode w = .error .nonzeroUnusedField) ∧
    (rsv = 0#2 → (op = 1#3 ∨ op = 2#3) → data ≠ 0#8 → decode w = .error .nonzeroUnusedField) ∧
    (rsv = 0#2 → op ≠ 7#3 → ((op = 3#3 ∨ op = 4#3 ∨ op = 5#3 ∨ op = 6#3) → port = 0#3 ∧ data = 0#8) →
      ((op = 1#3 ∨ op = 2#3) → data = 0#8) →
      ∃ i, decode w = .ok i ∧ i.fields = { op := op, rsv := 0#2, port := port, data := data })

/-- A few words of the opcode map, one of each class (rule R96). -/
def Obligations.WrittenWordsDecode : Prop :=
  decode 0x0083#16 = .ok (.wrCtrl 0x83#8) ∧ decode 0x07FF#16 = .ok (.wrData 0xFF#8) ∧
  decode 0x0610#16 = .ok (.wrAddr 0x10#8) ∧ decode 0x2200#16 = .ok .rdStatus ∧ decode 0x4700#16 = .ok .dbgData ∧
  decode 0x6000#16 = .ok .tick ∧ decode 0x8000#16 = .ok .reset ∧ decode 0xA000#16 = .ok .ackNmi ∧
  decode 0xC000#16 = .ok .ackFrame ∧ decode 0x2201#16 = .error .nonzeroUnusedField ∧
  decode 0x6100#16 = .error .nonzeroUnusedField ∧ decode 0x0800#16 = .error .reservedBits ∧
  decode 0xE000#16 = .error .reservedOp

/-- The step takes the oldest word issued, and is exec of the operation it decodes to on the machine without
that word; the word that withFetchWord issues is the next one. The queue is the model's (log entry 1). -/
def Obligations.StepRunsTheDecodedWord : Prop :=
  (∀ (s : State) (w : HostWord) (rest : List HostWord) (i : Instr),
    s.driver = w :: rest → decode w = .ok i → step s = exec i { s with driver := rest }) ∧
  (∀ (s : State) (i : Instr), step (s.withFetchWord 16 (encode i).toNat) = exec i s)

/-- A refused word has no step (rules R94, R272), and with no word issued the block holds its state (R286; log
entry 1). -/
def Obligations.StepRefusesAndIdles : Prop :=
  (∀ (s : State) (w : HostWord) (rest : List HostWord) (e : DecodeError),
    s.driver = w :: rest → decode w = .error e → step s = .refused (refusalOf w e)) ∧
  (∀ s : State, s.driver = [] → step s = .next s)

/-! ### The invariant -/

/-- The invariant holds at reset. -/
def Obligations.ResetMeetsTheInvariant : Prop := State.reset.Inv

/-- Every step keeps the invariant, from every state that has it. -/
def Obligations.EveryStepKeepsTheInvariant : Prop :=
  ∀ s t : State, s.Inv → step s = .next t → t.Inv

/-! ### The fields of words and memory decode -/

/-- The layout of the composite address (rule R24): five fields, packed from bit 0 in the listed order. -/
def Obligations.CompositeAddressLayout : Prop :=
  ∀ a : CompositeAddr,
    a.toNat = (coarseX a).toNat + 32 * (coarseY a).toNat + 1024 * (ntX a).toNat + 2048 * (ntY a).toNat
      + 4096 * (fineY a).toNat

/-- Rule R63 and rule R65: the two reads. The address is reduced to 14 bits, the mapper is asked first, and only
the normal-mode read that the mapper declines notifies the latch. Nothing but the mapper's side changes. That an
access of the nametable range asks the mirroring is log entry 9. -/
def Obligations.ReadProtocol : Prop :=
  ∀ (s : State) (addr : BusAddr),
    let a := ppuAddr addr
    a.toNat = addr.toNat % 0x4000 ∧
    (∀ b, s.mapper.readAnswer a = some b →
      s.memRead addr = (b, { s with mapper := s.mapper.afterRead, trace := .interceptRead a :: s.trace }) ∧
      s.memReadDbg addr = (b, { s with mapper := s.mapper.afterRead, trace := .interceptRead a :: s.trace })) ∧
    (s.mapper.readAnswer a = none →
      s.memRead addr = (s.internalRead a,
        { s with mapper := s.mapper.afterRead
                 trace := .onLatchUpdate a :: (mirroringAsk a ++ .interceptRead a :: s.trace) }) ∧
      s.memReadDbg addr = (s.internalRead a,
        { s with mapper := s.mapper.afterRead, trace := mirroringAsk a ++ .interceptRead a :: s.trace }))

/-- Which cell an address reaches (rules R66 to R69): pattern cells are the address itself, nametable cells are
the 1024 bytes of the bank that rule R68's table gives the 12-bit offset, palette cells repeat every 32 bytes with
four aliases. That only 28 of them are reached (the last clause) is the spec's own inference in rule R69. -/
def Obligations.CellOfAnAddress : Prop :=
  ∀ (m : Mirroring) (a : PpuAddr),
    let n := a.toNat % 0x1000
    (ntBank .vertical a).toNat =
        (if n < 0x400 then 0 else if n < 0x800 then 1 else if n < 0xC00 then 0 else 1) ∧
    (ntBank .horizontal a).toNat =
        (if n < 0x400 then 0 else if n < 0x800 then 0 else if n < 0xC00 then 1 else 1) ∧
    (a.toNat ≤ 0x1FFF → inPatternRange a = true ∧ ptIndex a = a.toNat) ∧
    (0x2000 ≤ a.toNat → a.toNat ≤ 0x3EFF →
      inPatternRange a = false ∧ inNametableRange a = true ∧
      ntIndex m a = 1024 * (ntBank m a).toNat + a.toNat % 0x400) ∧
    (0x3F00 ≤ a.toNat →
      inPatternRange a = false ∧ inNametableRange a = false ∧
      palIndex a = (if a.toNat % 32 = 0x10 ∨ a.toNat % 32 = 0x14 ∨ a.toNat % 32 = 0x18 ∨ a.toNat % 32 = 0x1C
        then a.toNat % 32 - 0x10 else a.toNat % 32) ∧
      palIndex a ≠ 0x10 ∧ palIndex a ≠ 0x14 ∧ palIndex a ≠ 0x18 ∧ palIndex a ≠ 0x1C)

/-- Rule R70: a palette read is the cell masked with 0x30 in grayscale mode and with 0x3F otherwise, so it is at
most 0x3F; the cell itself is not changed. -/
def Obligations.PaletteReadIsMasked : Prop :=
  ∀ (s : State) (a : PpuAddr), 0x3F00 ≤ a.toNat →
    s.internalRead a =
      Memory.read .pal s.mem.pal (palIndex a) &&& (if s.bank.mask.getLsbD 0 then 0x30#8 else 0x3F#8) ∧
    (s.internalRead a).toNat ≤ 0x3F

/-- The round trip that rule R85 infers from rules R63 to R71: a write that the mapper does not take, read back in debug mode, also through a palette alias. -/
def Obligations.MemoryRoundTrip : Prop :=
  ∀ (s : State) (a b : BusAddr) (val : Byte),
    s.mapper.writeAnswer (ppuAddr a) val = false →
    (s.memWrite a val).mapper.readAnswer (ppuAddr b) = none →
    (a.toNat % 0x4000 ≤ 0x3EFF → b = a → ((s.memWrite a val).memReadDbg b).1 = val) ∧
    (0x3F00 ≤ a.toNat % 0x4000 → 0x3F00 ≤ b.toNat % 0x4000 → palIndex (ppuAddr b) = palIndex (ppuAddr a) →
      ((s.memWrite a val).memReadDbg b).1 = val &&& (if s.bank.mask.getLsbD 0 then 0x30#8 else 0x3F#8))

/-! ### Port writes -/

/-- Rule R113: CTRL takes the byte, `t[10]` and `t[11]` its low two bits; nothing else changes. -/
def Obligations.WrCtrlResult : Prop :=
  ∀ (d : Byte) (s : State), ∃ t, exec (.wrCtrl d) s = .next t ∧ t.bank.ctrl = d ∧
    (∀ i, t.bank.t.getLsbD i =
      if i = 10 then d.getLsbD 0 else if i = 11 then d.getLsbD 1 else s.bank.t.getLsbD i) ∧
    t = { s with bank.ctrl := t.bank.ctrl, bank.t := t.bank.t }

/-- Rules R114, R115 and R116: MASK and the OAM cursor take the byte; a write to the status port does nothing. -/
def Obligations.PlainRegisterWrites : Prop :=
  ∀ (d : Byte) (s : State),
    exec (.wrMask d) s = .next { s with bank.mask := d } ∧
    exec (.wrStatus d) s = .next s ∧
    exec (.wrOamaddr d) s = .next { s with bank.oamAddr := d }

/-- Rule R117: the byte goes to the OAM cell at the cursor, every other cell is as before, and the cursor moves
on modulo 256. -/
def Obligations.WrOamdataResult : Prop :=
  ∀ (d : Byte) (s : State), ∃ t, exec (.wrOamdata d) s = .next t ∧
    StoredByte .oam s.mem.oam t.mem.oam s.bank.oamAddr.toNat d ∧
    t.bank.oamAddr.toNat = (s.bank.oamAddr.toNat + 1) % 256 ∧
    t = { s with mem.oam := t.mem.oam, bank.oamAddr := t.bank.oamAddr }

/-- Rule R118: the two halves of a scroll pair. -/
def Obligations.WrScrollResult : Prop :=
  ∀ (d : Byte) (s : State),
    (s.bank.w = false → ∃ t, exec (.wrScroll d) s = .next t ∧
      t.bank.fineX.toNat = d.toNat % 8 ∧ (coarseX t.bank.t).toNat = d.toNat / 8 ∧
      coarseY t.bank.t = coarseY s.bank.t ∧ ntX t.bank.t = ntX s.bank.t ∧ ntY t.bank.t = ntY s.bank.t ∧
      fineY t.bank.t = fineY s.bank.t ∧ t.bank.w = true ∧
      t = { s with bank.fineX := t.bank.fineX, bank.t := t.bank.t, bank.w := t.bank.w }) ∧
    (s.bank.w = true → ∃ t, exec (.wrScroll d) s = .next t ∧
      (fineY t.bank.t).toNat = d.toNat % 8 ∧ (coarseY t.bank.t).toNat = d.toNat / 8 ∧
      coarseX t.bank.t = coarseX s.bank.t ∧ ntX t.bank.t = ntX s.bank.t ∧ ntY t.bank.t = ntY s.bank.t ∧
      t.bank.w = false ∧ t = { s with bank.t := t.bank.t, bank.w := t.bank.w })

/-- Rule R119: the two halves of an address pair. -/
def Obligations.WrAddrResult : Prop :=
  ∀ (d : Byte) (s : State),
    (s.bank.w = false → ∃ t, exec (.wrAddr d) s = .next t ∧
      t.bank.t.toNat = 256 * (d.toNat % 64) + s.bank.t.toNat % 256 ∧ t.bank.w = true ∧
      t = { s with bank.t := t.bank.t, bank.w := t.bank.w }) ∧
    (s.bank.w = true → ∃ t, exec (.wrAddr d) s = .next t ∧
      t.bank.t.toNat = 256 * (s.bank.t.toNat / 256) + d.toNat ∧ t.bank.v = t.bank.t ∧ t.bank.w = false ∧
      t = { s with bank.t := t.bank.t, bank.v := t.bank.v, bank.w := t.bank.w })

/-- Rule R120 with rules R64, R66, R67, R71 and R111: the cell that `v` reaches takes the byte unless the mapper
does, every other cell is as before, the calls come in order and never notify a scanline boundary, and `v` moves
on by the stride modulo 2^15. That an access of the nametable range asks the mirroring is log entry 9. -/
def Obligations.WrDataResult : Prop :=
  ∀ (d : Byte) (s : State), s.mapper.attached = true →
    let a := ppuAddr (busOf s.bank.v)
    ∃ t, exec (.wrData d) s = .next t ∧ a.toNat = s.bank.v.toNat % 0x4000 ∧
      t.bank.v.toNat = (s.bank.v.toNat + (if s.bank.ctrl.getLsbD 2 then 32 else 1)) % 32768 ∧
      (s.mapper.writeAnswer a d = true → t.mem = s.mem ∧ t.trace = .interceptWrite a d :: s.trace) ∧
      (s.mapper.writeAnswer a d = false →
        t.trace = .onLatchUpdate a :: (mirroringAsk a ++ .interceptWrite a d :: s.trace) ∧
        (a.toNat ≤ 0x1FFF →
          StoredByte .pt s.mem.pt t.mem.pt (ptIndex a) d ∧ t.mem = { s.mem with pt := t.mem.pt }) ∧
        (0x2000 ≤ a.toNat → a.toNat ≤ 0x3EFF →
          StoredByte .nt s.mem.nt t.mem.nt (ntIndex s.mapper.mirroring a) d ∧ t.mem = { s.mem with nt := t.mem.nt }) ∧
        (0x3F00 ≤ a.toNat →
          StoredByte .pal s.mem.pal t.mem.pal (palIndex a) d ∧ t.mem = { s.mem with pal := t.mem.pal })) ∧
      t.mapper = s.mapper.afterWrite ∧
      t = { s with bank.v := t.bank.v, mem := t.mem, mapper := t.mapper, trace := t.trace }

/-! ### Port reads -/

/-- Rules R121, R122, R124, R126, R127 and R132 to R136: the driver gets a draw (log entry 2) and nothing else
changes: no register, no memory, no mapper call. -/
def Obligations.DrawPortsChangeNothing : Prop :=
  ∀ (s : State), ∀ i ∈ drawPorts,
    exec i s = .next { s with returned := Config.portDraw s.draws :: s.returned, draws := s.draws + 1 }

/-- Rule R123: the composite returned, from before the clear; then `vblank` and `w` are 0. -/
def Obligations.RdStatusResult : Prop :=
  ∀ s : State, ∃ t b, exec .rdStatus s = .next t ∧
    (∀ i, b.getLsbD i =
      if 5 ≤ i then s.bank.status.getLsbD i
      else match s.statusLowSource with
        | .lastReturned => s.bank.lastDataOut.getLsbD i
        | .readBuffer => s.bank.readBuffer.getLsbD i) ∧
    (∀ i, t.bank.status.getLsbD i = if i = 7 then false else s.bank.status.getLsbD i) ∧
    t = { s with bank.status := t.bank.status, bank.w := false, returned := b :: s.returned }

/-- Rule R125: the byte at the cursor is returned and the cursor moves on modulo 256. -/
def Obligations.RdOamdataResult : Prop :=
  ∀ s : State, ∃ t, exec .rdOamdata s = .next t ∧
    t.returned = Memory.read .oam s.mem.oam s.bank.oamAddr.toNat :: s.returned ∧
    t.bank.oamAddr.toNat = (s.bank.oamAddr.toNat + 1) % 256 ∧
    t = { s with returned := t.returned, bank.oamAddr := t.bank.oamAddr }

/-- Rule R128 with rules R63, R111 and R112. That an access of the nametable range asks the mirroring is log
entry 9. -/
def Obligations.RdDataResult : Prop :=
  ∀ s : State, s.mapper.attached = true →
    let a := ppuAddr (busOf s.bank.v)
    ∃ t fetched result, exec .rdData s = .next t ∧ a.toNat = s.bank.v.toNat % 0x4000 ∧
      (∀ b, s.mapper.readAnswer a = some b → fetched = b) ∧
      (s.mapper.readAnswer a = none → fetched = s.internalRead a) ∧
      (0x3F00 ≤ s.bank.v.toNat % 0x4000 → result = fetched) ∧
      (s.bank.v.toNat % 0x4000 < 0x3F00 → result = s.bank.readBuffer) ∧
      t.bank.v.toNat = (s.bank.v.toNat + (if s.bank.ctrl.getLsbD 2 then 32 else 1)) % 32768 ∧
      t.trace = (if s.bank.v.getLsbD 12 = false ∧ t.bank.v.getLsbD 12 = true then [.onScanlineBoundary] else [])
        ++ (match s.mapper.readAnswer a with
            | some _ => [.interceptRead a]
            | none => .onLatchUpdate a :: (mirroringAsk a ++ [.interceptRead a])) ++ s.trace ∧
      t.mapper = s.mapper.afterRead ∧
      t = { s with bank.readBuffer := fetched, bank.lastDataOut := result, bank.v := t.bank.v,
                   returned := result :: s.returned, mapper := t.mapper, trace := t.trace }

/-- Rule R128 twice, as rule R311 tells it: of two data reads below the palette range with nothing between them, the first returns the stale
buffer and the second the byte that the first one fetched. -/
def Obligations.ReadBufferDelaysByOneRead : Prop :=
  ∀ s : State, s.mapper.attached = true → s.bank.v.toNat % 0x4000 < 0x3F00 →
    ∃ s₁, exec .rdData s = .next s₁ ∧ s₁.returned = s.bank.readBuffer :: s.returned ∧
      (s₁.bank.v.toNat % 0x4000 < 0x3F00 →
        ∃ s₂, exec .rdData s₁ = .next s₂ ∧
          s₂.returned = s.readValue (ppuAddr (busOf s.bank.v)) :: s.bank.readBuffer :: s.returned)

/-- Rules R129, R130 and R131: the register is returned and nothing else changes. -/
def Obligations.DebugReadsReturnRegisters : Prop :=
  ∀ s : State,
    exec .dbgCtrl s = .next { s with returned := s.bank.ctrl :: s.returned } ∧
    exec .dbgMask s = .next { s with returned := s.bank.mask :: s.returned } ∧
    exec .dbgStatus s = .next { s with returned := s.bank.status :: s.returned }

/-! ### Where an operation completes and where it is stuck -/

/-- Rules R270, R271 and R305: with a mapper attached, no host operation fails; every one of the 28 takes its step. The
same holds of each operation at which the driver keeps rule R305, whose duty covers the first TICK after reset; so a
run of decodable words in which it keeps the rule is never stuck: it has an observation. -/
def Obligations.EveryOperationCompletesWithAMapper : Prop :=
  (∀ (i : Instr) (s : State), s.mapper.attached = true → ∃ t, exec i s = .next t) ∧
  (∀ (i : Instr) (s : State), keepsMapperRule i s = true → ∃ t, exec i s = .next t) ∧
  (∀ s : State, s.timing = State.reset.timing → s.mapper.attached = false → keepsMapperRule .tick s = false) ∧
  (∀ (ws : List HostWord) (s : State), (∀ w ∈ ws, ∃ i, decode w = .ok i) → runKeepsMapperRule ws s = true →
    (observe s ws).isSome = true)

/-- Rule R271 and decision D40: without a mapper, WR_DATA and RD_DATA are stuck, a TICK is stuck exactly when it would
call one and otherwise does what it does with one, and every other operation takes its step. What is stuck is always an
operation before which rule R305 tells the driver to attach a mapper (log entry 16). -/
def Obligations.StuckExactlyWithoutAMapper : Prop :=
  ∀ s : State, s.mapper.attached = false →
    (∀ d, exec (.wrData d) s = .fault .missingMapper) ∧
    exec .rdData s = .fault .missingMapper ∧
    (∀ d : Nat, s.Processes d →
      (s.TickCallsMapper d → exec .tick s = .fault .missingMapper) ∧
      (¬ s.TickCallsMapper d → ∃ t, exec .tick s = .next t ∧ t.trace = s.trace ∧ s.AdvancesPast t d ∧
        exec .tick { s with mapper.attached := true } = .next { t with mapper.attached := true })) ∧
    (∀ i : Instr, i ≠ .rdData → i ≠ .tick → (∀ d, i ≠ .wrData d) → ∃ t, exec i s = .next t) ∧
    (∀ (i : Instr) (f : Fault), exec i s = .fault f → keepsMapperRule i s = false)

/-! ### TICK: the raster -/

/-- Rules R246, R247 and R248: from the dot that the TICK processes (rule R242), the dot and the scanline advance, and
the frame wraps. -/
def Obligations.TickAdvancesTheRaster : Prop :=
  ∀ (s : State) (d : Nat), s.mapper.attached = true → s.Processes d →
    ∃ t, exec .tick s = .next t ∧ s.AdvancesPast t d

/-- Rule R242: at (0, 0) of an odd frame with a render enable set, the TICK does the work of (0, 1) and advances to
(0, 2). -/
def Obligations.OddFrameSkipsDotZero : Prop :=
  ∀ s : State, s.SkipsDot →
    exec .tick s = exec .tick { s with timing.dot := 1 } ∧
    (s.mapper.attached = true → ∃ t, exec .tick s = .next t ∧ t.timing.scanline = 0 ∧ t.timing.dot = 2)

/-- What no TICK changes: the memories, every register of the bank but `v` and STATUS, and the driver's side. -/
def Obligations.TickFrame : Prop :=
  ∀ s : State, s.mapper.attached = true → ∃ t, exec .tick s = .next t ∧
    t.mem = s.mem ∧ t.bank = { s.bank with v := t.bank.v, status := t.bank.status } ∧
    (∀ i, i < 5 → t.bank.status.getLsbD i = s.bank.status.getLsbD i) ∧
    t.returned = s.returned ∧ t.draws = s.draws ∧ t.driver = s.driver ∧ t.statusLowSource = s.statusLowSource ∧
    t.mapper.attached = s.mapper.attached ∧ t.mapper.mirroring = s.mapper.mirroring ∧
    t.mapper.writeAnswers = s.mapper.writeAnswers ∧ ∃ calls, t.trace = calls ++ s.trace

/-- Rules R160, R240, R244 and R246, and the table that rule R249 infers: on scanlines 240 … 260 a TICK moves only
the raster, with the frame signals and the frame at the wrap, and at (241, 1) sets the vblank flag and, when enabled,
the request; it needs no mapper. -/
def Obligations.NothingRendersInVblank : Prop :=
  ∀ s : State, 240 ≤ s.timing.scanline → ∃ t, exec .tick s = .next t ∧
    t = { s with timing := t.timing, front := t.front, bank.status := t.bank.status } ∧
    s.AdvancesPast t s.timing.dot ∧
    (∀ i, t.bank.status.getLsbD i =
      (s.bank.status.getLsbD i || decide (i = 7 ∧ s.timing.scanline = 241 ∧ s.timing.dot = 1))) ∧
    t.timing.nmiPending =
      (s.timing.nmiPending ||
        (decide (s.timing.scanline = 241 ∧ s.timing.dot = 1) && s.bank.ctrl.getLsbD 7))

/-- The frame length that rule R250 infers from rules R242, R246 and R247, over the model's queue of issued words (log
entry 1): from the start of a frame, TICKs alone bring the next wrap after 89 342 of them, or after 89 341 when the
frame is odd and a render enable is set; no earlier TICK completes a frame or changes `front`. -/
def Obligations.FrameLength : Prop :=
  ∀ (s : State) (k : Nat) (rest : List HostWord),
    s.mapper.attached = true → s.timing.scanline = -1 → s.timing.dot = 0 →
    s.driver = List.replicate k 0x6000#16 ++ rest →
    ∀ n : Nat, n = (if s.timing.oddFrame = true ∧ (s.bank.mask.getLsbD 3 || s.bank.mask.getLsbD 4) = true
      then 89341 else 89342) →
    (k < n → ∃ t, Host.Core.run Sys2Proof.core k s = .next t ∧ t.driver = rest ∧
      t.timing.frameComplete = s.timing.frameComplete ∧ t.timing.oddFrame = s.timing.oddFrame ∧ t.front = s.front) ∧
    (k = n → ∃ t, Host.Core.run Sys2Proof.core k s = .next t ∧ t.driver = rest ∧
      t.timing.scanline = -1 ∧ t.timing.dot = 0 ∧ t.timing.frameComplete = true ∧
      t.timing.oddFrame = !s.timing.oddFrame ∧ t.front = t.back)

/-- What rules R230 and R248 infer from rules R229 and R242, over the model's queue of issued words (log entry 1): the
frame that those TICKs publish is fully drawn; no pixel of it is a power-on draw, that is, each is in the model's list
of written pixels (log entry 4). -/
def Obligations.PublishedFrameIsFullyDrawn : Prop :=
  ∀ (s : State) (k : Nat) (rest : List HostWord),
    s.mapper.attached = true → s.timing.scanline = -1 → s.timing.dot = 0 →
    s.driver = List.replicate k 0x6000#16 ++ rest →
    k = (if s.timing.oddFrame = true ∧ (s.bank.mask.getLsbD 3 || s.bank.mask.getLsbD 4) = true
      then 89341 else 89342) →
    ∃ t, Host.Core.run Sys2Proof.core k s = .next t ∧
      ∀ x y, x < 256 → y < 240 → (Cells.lookup t.front.pixels (pixelIndex x y)).isSome = true

/-! ### TICK: flags and the request -/

/-- Rules R243 and R244: the vblank start and the pre-render clear, each at its dot and no other. The clear leaves the
slots' bytes, but the sprite step of the same TICK still counts `x` down (rule R204). At no other dot is a status flag
cleared or a sprite shifter zeroed: it is kept, or shifted by rule R204, but for the load of dot 340 (rule R203). -/
def Obligations.TickVblankAndPreRenderClear : Prop :=
  ∀ (s : State) (d : Nat), s.mapper.attached = true → s.Processes d → ∃ t, exec .tick s = .next t ∧
    (s.timing.scanline = 241 → d = 1 →
      t.bank.status.getLsbD 7 = true ∧
      t.timing.nmiPending = (s.timing.nmiPending || s.bank.ctrl.getLsbD 7)) ∧
    (s.timing.scanline = -1 → d = 1 →
      t.bank.status.getLsbD 5 = false ∧ t.bank.status.getLsbD 6 = false ∧ t.bank.status.getLsbD 7 = false ∧
      (∀ i : Fin 8, t.sp.slot[i] = { s.sp.slot[i] with
        x := if s.bank.mask.getLsbD 4 = true ∧ i.val < s.sp.count ∧ s.sp.slot[i].x ≠ 0#8
          then s.sp.slot[i].x - 1#8 else s.sp.slot[i].x
        lo := 0#8
        hi := 0#8 }) ∧
      t.sp.count = s.sp.count ∧ t.sp.zeroPossible = s.sp.zeroPossible ∧
      t.timing.nmiPending = s.timing.nmiPending) ∧
    (¬(d = 1 ∧ s.timing.scanline = 241) → ¬(d = 1 ∧ s.timing.scanline = -1) →
      t.bank.status.getLsbD 7 = s.bank.status.getLsbD 7 ∧ t.timing.nmiPending = s.timing.nmiPending) ∧
    (¬(d = 1 ∧ s.timing.scanline = -1) →
      (s.bank.status.getLsbD 5 = true → t.bank.status.getLsbD 5 = true) ∧
      (s.bank.status.getLsbD 6 = true → t.bank.status.getLsbD 6 = true) ∧
      (d ≠ 340 → ∀ i : Fin 8,
        let shifts := s.RenderingLine ∧ 1 ≤ d ∧ d ≤ 257 ∧ s.bank.mask.getLsbD 4 = true ∧ i.val < s.sp.count ∧
          s.sp.slot[i].x = 0#8
        (shifts → t.sp.slot[i].lo = s.sp.slot[i].lo <<< 1 ∧ t.sp.slot[i].hi = s.sp.slot[i].hi <<< 1) ∧
        (¬ shifts → t.sp.slot[i].lo = s.sp.slot[i].lo ∧ t.sp.slot[i].hi = s.sp.slot[i].hi)))

/-- Rules R195, R226 and R227: when the two sprite flags rise; they fall only at pre-render dot 1. -/
def Obligations.TickSpriteFlags : Prop :=
  ∀ s : State, s.mapper.attached = true → ¬ s.SkipsDot → ¬(s.timing.scanline = -1 ∧ s.timing.dot = 1) →
    ∃ t, exec .tick s = .next t ∧
      (t.bank.status.getLsbD 5 = true ↔
        s.bank.status.getLsbD 5 = true ∨
          (s.RenderingLine ∧ s.timing.dot = 320 ∧ 8 < s.qualifyingEntries.length)) ∧
      (t.bank.status.getLsbD 6 = true ↔
        s.bank.status.getLsbD 6 = true ∨
          (s.VisibleLine ∧ s.atCompositor.bgPixel.pixel ≠ 0#2 ∧ s.atCompositor.fgPixel.pixel ≠ 0#2 ∧
            s.atCompositor.fgPixel.slot = some 0 ∧ s.sp.zeroPossible = true ∧
            s.bank.mask.getLsbD 3 = true ∧ s.bank.mask.getLsbD 4 = true ∧
            (if s.bank.mask.getLsbD 1 = false ∧ s.bank.mask.getLsbD 2 = false then 9 else 1) ≤ s.timing.dot ∧
            s.timing.dot < 258))

/-- Rule R273: the request is raised by the TICK of (241, 1) with the enable set, and by nothing else; rule R274:
only ACK_NMI and RESET take it back. -/
def Obligations.OneInterruptSource : Prop :=
  (∀ s : State, s.timing.scanline = 241 → s.timing.dot = 1 → s.bank.ctrl.getLsbD 7 = true →
    ∃ t, exec .tick s = .next t ∧ t.timing.nmiPending = true) ∧
  (∀ (i : Instr) (s t : State), exec i s = .next t →
    (s.timing.nmiPending = false → t.timing.nmiPending = true →
      i = .tick ∧ s.timing.scanline = 241 ∧ s.timing.dot = 1 ∧ s.bank.ctrl.getLsbD 7 = true) ∧
    (s.timing.nmiPending = true → t.timing.nmiPending = false → i = .ackNmi ∨ i = .reset))

/-! ### TICK: the background pipeline -/

/-- Rule R170, with its gate: `IncX`. -/
def Obligations.IncXRule : Prop :=
  ∀ s : State,
    ((s.bank.mask.getLsbD 3 || s.bank.mask.getLsbD 4) = false → s.incX = s) ∧
    ((s.bank.mask.getLsbD 3 || s.bank.mask.getLsbD 4) = true →
      s.incX = { s with bank.v := s.incX.bank.v } ∧
      coarseY s.incX.bank.v = coarseY s.bank.v ∧ ntY s.incX.bank.v = ntY s.bank.v ∧
      fineY s.incX.bank.v = fineY s.bank.v ∧
      ((coarseX s.bank.v).toNat = 31 →
        (coarseX s.incX.bank.v).toNat = 0 ∧ (ntX s.incX.bank.v).toNat = 1 - (ntX s.bank.v).toNat) ∧
      ((coarseX s.bank.v).toNat ≠ 31 →
        (coarseX s.incX.bank.v).toNat = (coarseX s.bank.v).toNat + 1 ∧ ntX s.incX.bank.v = ntX s.bank.v))

/-- Rule R171, with its gate: `IncY`, and the corner cases that rule R172 infers from it. -/
def Obligations.IncYRule : Prop :=
  ∀ s : State,
    ((s.bank.mask.getLsbD 3 || s.bank.mask.getLsbD 4) = false → s.incY = s) ∧
    ((s.bank.mask.getLsbD 3 || s.bank.mask.getLsbD 4) = true →
      s.incY = { s with bank.v := s.incY.bank.v } ∧
      coarseX s.incY.bank.v = coarseX s.bank.v ∧ ntX s.incY.bank.v = ntX s.bank.v ∧
      ((fineY s.bank.v).toNat < 7 →
        (fineY s.incY.bank.v).toNat = (fineY s.bank.v).toNat + 1 ∧
        coarseY s.incY.bank.v = coarseY s.bank.v ∧ ntY s.incY.bank.v = ntY s.bank.v) ∧
      ((fineY s.bank.v).toNat = 7 →
        (fineY s.incY.bank.v).toNat = 0 ∧
        ((coarseY s.bank.v).toNat = 29 →
          (coarseY s.incY.bank.v).toNat = 0 ∧ (ntY s.incY.bank.v).toNat = 1 - (ntY s.bank.v).toNat) ∧
        ((coarseY s.bank.v).toNat = 31 → (coarseY s.incY.bank.v).toNat = 0 ∧ ntY s.incY.bank.v = ntY s.bank.v) ∧
        ((coarseY s.bank.v).toNat ≠ 29 → (coarseY s.bank.v).toNat ≠ 31 →
          (coarseY s.incY.bank.v).toNat = (coarseY s.bank.v).toNat + 1 ∧ ntY s.incY.bank.v = ntY s.bank.v)))

/-- When a TICK moves `v` (rules R161, R170, R171, R173, R175, R176): `IncX` at the phase-7 dots, `IncY` after it
at dot 256, the horizontal fields of `t` at dot 257, its vertical fields at pre-render dots 280 … 304, and never
without a render enable. -/
def Obligations.TickMovesVOnSchedule : Prop :=
  ∀ s : State, s.mapper.attached = true →
    ∃ t, exec .tick s = .next t ∧
      (¬(s.RenderingLine ∧ (s.bank.mask.getLsbD 3 || s.bank.mask.getLsbD 4) = true) → t.bank.v = s.bank.v) ∧
      (s.RenderingLine → (s.bank.mask.getLsbD 3 || s.bank.mask.getLsbD 4) = true →
        (s.timing.dot = 256 → t.bank.v = s.incX.incY.bank.v) ∧
        ((s.timing.dot % 8 = 0 ∧ (2 ≤ s.timing.dot ∧ s.timing.dot < 256 ∨ 321 ≤ s.timing.dot ∧ s.timing.dot ≤ 337)) →
          t.bank.v = s.incX.bank.v) ∧
        (s.timing.dot = 257 →
          coarseX t.bank.v = coarseX s.bank.t ∧ ntX t.bank.v = ntX s.bank.t ∧
          coarseY t.bank.v = coarseY s.bank.v ∧ ntY t.bank.v = ntY s.bank.v ∧ fineY t.bank.v = fineY s.bank.v) ∧
        (s.timing.scanline = -1 → 280 ≤ s.timing.dot → s.timing.dot ≤ 304 →
          fineY t.bank.v = fineY s.bank.t ∧ ntY t.bank.v = ntY s.bank.t ∧ coarseY t.bank.v = coarseY s.bank.t ∧
          coarseX t.bank.v = coarseX s.bank.v ∧ ntX t.bank.v = ntX s.bank.v) ∧
        (¬(s.timing.dot % 8 = 0 ∧ (2 ≤ s.timing.dot ∧ s.timing.dot ≤ 256 ∨ 321 ≤ s.timing.dot ∧ s.timing.dot ≤ 337)) →
          s.timing.dot ≠ 257 → ¬(s.timing.scanline = -1 ∧ 280 ≤ s.timing.dot ∧ s.timing.dot ≤ 304) →
          t.bank.v = s.bank.v))

/-- Rules R162 and R164, bit by bit: the shift drops bit 15 and brings a zero into bit 0; the load keeps the high
bytes, puts the pattern latches in the low bytes and widens each attribute bit to a low byte. Neither moves a
latch. -/
def Obligations.ShiftAndLoadRules : Prop :=
  ∀ b : Background,
    (b.shift.nextId = b.nextId ∧ b.shift.nextAttr = b.nextAttr ∧ b.shift.nextLo = b.nextLo ∧ b.shift.nextHi = b.nextHi) ∧
    (b.load.nextId = b.nextId ∧ b.load.nextAttr = b.nextAttr ∧ b.load.nextLo = b.nextLo ∧ b.load.nextHi = b.nextHi) ∧
    ∀ i : Nat, i < 16 →
    (b.shift.patLo.getLsbD i = if i = 0 then false else b.patLo.getLsbD (i - 1)) ∧
    (b.shift.patHi.getLsbD i = if i = 0 then false else b.patHi.getLsbD (i - 1)) ∧
    (b.shift.attrLo.getLsbD i = if i = 0 then false else b.attrLo.getLsbD (i - 1)) ∧
    (b.shift.attrHi.getLsbD i = if i = 0 then false else b.attrHi.getLsbD (i - 1)) ∧
    (b.load.patLo.getLsbD i = if i < 8 then b.nextLo.getLsbD i else b.patLo.getLsbD i) ∧
    (b.load.patHi.getLsbD i = if i < 8 then b.nextHi.getLsbD i else b.patHi.getLsbD i) ∧
    (b.load.attrLo.getLsbD i = if i < 8 then b.nextAttr.getLsbD 0 else b.attrLo.getLsbD i) ∧
    (b.load.attrHi.getLsbD i = if i < 8 then b.nextAttr.getLsbD 1 else b.attrHi.getLsbD i)

/-- What a TICK does to the background pipeline (rules R160 to R165, R167 to R169, R173): the shift at the
qualifying dots when `showBg`, the reload and the tile id at phase 0, the attribute quadrant at phase 2, the low
and the high plane at phases 4 and 6, and nothing at any other dot. -/
def Obligations.TickRunsTheFetchSequence : Prop :=
  ∀ s : State, s.mapper.attached = true → s.RenderingLine → ¬ s.SkipsDot →
    let shifted := if s.bank.mask.getLsbD 3 then s.bg.shift else s.bg
    let qualifying := (2 ≤ s.timing.dot ∧ s.timing.dot ≤ 257) ∨ (321 ≤ s.timing.dot ∧ s.timing.dot ≤ 337)
    let phase := (s.timing.dot - 1) % 8
    let plane := bgPatternAddr (bitField s.bank.ctrl 4) s.bg.nextId (fineY s.bank.v)
    ∃ t, exec .tick s = .next t ∧
      (qualifying → phase = 0 →
        t.bg = { shifted.load with nextId := s.readValue (ppuAddr (tileIdAddr s.bank.v)) }) ∧
      (qualifying → phase = 2 →
        t.bg = { shifted with nextAttr := attrQuadrant s.bank.v (s.readValue (ppuAddr (attrAddr s.bank.v))) }) ∧
      (qualifying → phase = 4 → t.bg = { shifted with nextLo := s.readValue (ppuAddr plane) }) ∧
      (qualifying → phase = 6 → t.bg = { shifted with nextHi := s.readValue (ppuAddr (plane + 8#16)) }) ∧
      (qualifying → (phase = 1 ∨ phase = 3 ∨ phase = 5 ∨ phase = 7) → t.bg = shifted) ∧
      (¬ qualifying → t.bg = s.bg)

/-- The addresses of the background fetches as numbers (rules R165, R168, R169): the tile id's, and the two
planes', which stay in the pattern range. -/
def Obligations.BackgroundFetchAddresses : Prop :=
  (∀ v : CompositeAddr, (tileIdAddr v).toNat = 0x2000 + v.toNat % 0x1000) ∧
  (∀ (bank : BitVec 1) (id : Byte) (fy : BitVec 3),
    (bgPatternAddr bank id fy).toNat = 0x1000 * bank.toNat + 16 * id.toNat + fy.toNat ∧
    (bgPatternAddr bank id fy + 8#16).toNat = 0x1000 * bank.toNat + 16 * id.toNat + fy.toNat + 8 ∧
    (bgPatternAddr bank id fy + 8#16).toNat ≤ 0x1FFF)

/-- Rules R166 and R167: the formula on the fields and the one on the bits of `v` give the same attribute address,
and the quadrant is the pair of bits that bit 1 of coarse X and of coarse Y select. -/
def Obligations.AttributeAddressAndQuadrant : Prop :=
  ∀ (v : CompositeAddr) (b : Byte),
    (attrAddr v).toNat = 0x23C0 + 0x800 * (ntY v).toNat + 0x400 * (ntX v).toNat + 8 * ((coarseY v).toNat / 4)
      + (coarseX v).toNat / 4 ∧
    attrAddr v = 0x23C0#16 ||| (busOf v &&& 0x0C00#16) ||| ((busOf v >>> 4) &&& 0x38#16)
      ||| ((busOf v >>> 2) &&& 0x07#16) ∧
    (attrQuadrant v b).toNat =
      b.toNat / 4 ^ ((coarseX v).toNat / 2 % 2 + 2 * ((coarseY v).toNat / 2 % 2)) % 4

/-! ### TICK: sprites -/

/-- Rules R190 to R196: at dot 320 of a rendering scanline the visible list becomes the first 8 qualifying entries
in index order, the other slots the sentinel; a ninth sets the overflow flag; the slots' shifters stay. -/
def Obligations.EvaluationListsTheFirstEight : Prop :=
  ∀ s : State, s.mapper.attached = true → s.RenderingLine → s.timing.dot = 320 →
    let q := s.qualifyingEntries
    ∃ t, exec .tick s = .next t ∧
      t.sp.count = min 8 q.length ∧
      t.sp.zeroPossible = decide (0 ∈ q) ∧
      t.bank.status.getLsbD 5 = (s.bank.status.getLsbD 5 || decide (8 < q.length)) ∧
      (∀ (i : Fin 8) (n : Nat), q[i.val]? = some n →
        t.sp.slot[i] = { s.sp.slot[i] with y := s.oamByte (4 * n), id := s.oamByte (4 * n + 1),
                                           attr := s.oamByte (4 * n + 2), x := s.oamByte (4 * n + 3) }) ∧
      (∀ i : Fin 8, q.length ≤ i.val →
        t.sp.slot[i] = { s.sp.slot[i] with y := 0xFF#8, id := 0xFF#8, attr := 0xFF#8, x := 0xFF#8 })

/-- Rules R197 to R203, with rules R63 and R84: at dot 340 each valid slot's planes are read, after the dummy fetch of
rule R174 and those of the slots before it, flipped when its attribute says so, and loaded. Each read is the mapper's
byte where it intercepts. -/
def Obligations.SpriteFetchLoadsThePlanes : Prop :=
  ∀ s : State, s.mapper.attached = true → s.RenderingLine → s.timing.dot = 340 →
    ∃ t, exec .tick s = .next t ∧ t.sp.count = s.sp.count ∧ t.sp.zeroPossible = s.sp.zeroPossible ∧
      ∀ i : Fin 8,
        let sl := s.sp.slot[i]
        let lo := s.readAfter (1 + 2 * i.val) (s.spriteAddr sl)
        let hi := s.readAfter (2 + 2 * i.val) (s.spriteAddr sl + 8#16)
        (i.val < s.sp.count → sl.attr.getLsbD 6 = false → t.sp.slot[i] = { sl with lo := lo, hi := hi }) ∧
        (i.val < s.sp.count → sl.attr.getLsbD 6 = true →
          t.sp.slot[i] = { sl with lo := lo.reverse, hi := hi.reverse }) ∧
        (s.sp.count ≤ i.val → t.sp.slot[i] = sl)

/-- Rules R198, R199 and R200: the address of a slot's low plane as a number, from the low four bits of its row,
whatever the row is. That the high plane, 8 above, stays in the pattern range is the spec's own inference in rule
R201. -/
def Obligations.SpriteFetchAddresses : Prop :=
  ∀ (s : State) (sl : Slot),
    let row := ((s.timing.scanline + 1 - (sl.y.toNat : Int)) % 16).toNat
    let fine := if sl.attr.getLsbD 7 then 7 - row % 8 else row % 8
    (s.bank.ctrl.getLsbD 5 = false →
      (s.spriteAddr sl).toNat = (if s.bank.ctrl.getLsbD 3 then 0x1000 else 0) + 16 * sl.id.toNat + fine) ∧
    (s.bank.ctrl.getLsbD 5 = true →
      (s.spriteAddr sl).toNat =
        0x1000 * (sl.id.toNat % 2) + 16 * (2 * (sl.id.toNat / 2) +
          (if sl.attr.getLsbD 7 then 1 - row / 8 else row / 8)) + fine) ∧
    (s.spriteAddr sl + 8#16).toNat = (s.spriteAddr sl).toNat + 8 ∧ (s.spriteAddr sl + 8#16).toNat ≤ 0x1FFF

/-- Rules R204 and R205: at dots 1 … 257 of a rendering scanline a valid slot counts its delay down, or shifts once
the delay is 0, when `showSp`; other slots never move. At (−1, 1) the clear of rule R243 then zeroes the shifters. At
every dot but these, 320 and 340 the whole sprite pipeline is unchanged. -/
def Obligations.SpriteShiftAndDelay : Prop :=
  ∀ (s : State) (d : Nat), s.mapper.attached = true → s.RenderingLine → s.Processes d →
    let out := fun sl : Slot => if s.timing.scanline = -1 ∧ d = 1 then { sl with lo := 0#8, hi := 0#8 } else sl
    ∃ t, exec .tick s = .next t ∧
      (1 ≤ d → d ≤ 257 →
        t.sp.count = s.sp.count ∧ t.sp.zeroPossible = s.sp.zeroPossible ∧
        ∀ i : Fin 8,
          let sl := s.sp.slot[i]
          (s.bank.mask.getLsbD 4 = true → i.val < s.sp.count → sl.x ≠ 0#8 →
            t.sp.slot[i] = out { sl with x := sl.x - 1#8 }) ∧
          (s.bank.mask.getLsbD 4 = true → i.val < s.sp.count → sl.x = 0#8 →
            t.sp.slot[i] = out { sl with lo := sl.lo <<< 1, hi := sl.hi <<< 1 }) ∧
          ((s.bank.mask.getLsbD 4 = false ∨ s.sp.count ≤ i.val) → t.sp.slot[i] = out sl)) ∧
      (¬(1 ≤ d ∧ d ≤ 257) → d ≠ 320 → d ≠ 340 → t.sp = s.sp)

/-- Rule R205: slots beyond the count cannot be seen. Two machines that differ only there, or before the sprite fetch
also in shifters that the fetch will load, take the same host operation the same way: both run or both stop, and when
they run they still differ only there. So they give the same register bank, memories, background, raster, frames,
mapper calls and bytes over any run. -/
def Obligations.InvalidSlotsAreUnobservable : Prop :=
  ∀ (i : Instr) (s s' : State), s.SameButUnseenSlots s' →
    (∀ t, exec i s = .next t → ∃ t', exec i s' = .next t' ∧ t.SameButUnseenSlots t') ∧
    (∀ f, exec i s = .fault f → exec i s' = .fault f)

/-! ### TICK: the compositor -/

/-- Rules R221, R222 and R223: the two layers' pixels at a dot. That the background's bit is 15 − fineX is the spec's
own inference in rule R221. -/
def Obligations.LayerPixels : Prop :=
  ∀ s : State,
    let b := 15 - s.bank.fineX.toNat
    (s.bank.mask.getLsbD 3 = true → (s.bank.mask.getLsbD 1 = true ∨ 9 ≤ s.timing.dot) →
      s.bgPixel.pixel = BitVec.ofBool (s.bg.patHi.getLsbD b) ++ BitVec.ofBool (s.bg.patLo.getLsbD b) ∧
      s.bgPixel.pal = BitVec.ofBool (s.bg.attrHi.getLsbD b) ++ BitVec.ofBool (s.bg.attrLo.getLsbD b)) ∧
    ((s.bank.mask.getLsbD 3 = false ∨ (s.bank.mask.getLsbD 1 = false ∧ s.timing.dot < 9)) →
      s.bgPixel.pixel = 0#2 ∧ s.bgPixel.pal = 0#2) ∧
    (∀ i : Fin 8, s.bank.mask.getLsbD 4 = true → (s.bank.mask.getLsbD 2 = true ∨ 9 ≤ s.timing.dot) →
      i.val < s.sp.count → s.sp.slot[i].x = 0#8 →
      (s.sp.slot[i].hi.getLsbD 7 || s.sp.slot[i].lo.getLsbD 7) = true →
      (∀ j : Fin 8, j < i →
        s.sp.slot[j].x ≠ 0#8 ∨ (s.sp.slot[j].hi.getLsbD 7 || s.sp.slot[j].lo.getLsbD 7) = false) →
      s.fgPixel.pixel = BitVec.ofBool (s.sp.slot[i].hi.getLsbD 7) ++ BitVec.ofBool (s.sp.slot[i].lo.getLsbD 7) ∧
      s.fgPixel.pal.toNat = 4 + s.sp.slot[i].attr.toNat % 4 ∧
      s.fgPixel.front = !s.sp.slot[i].attr.getLsbD 5 ∧ s.fgPixel.slot = some i) ∧
    ((s.bank.mask.getLsbD 4 = false ∨ (s.bank.mask.getLsbD 2 = false ∧ s.timing.dot < 9) ∨
        (∀ j : Fin 8, j.val < s.sp.count →
          s.sp.slot[j].x ≠ 0#8 ∨ (s.sp.slot[j].hi.getLsbD 7 || s.sp.slot[j].lo.getLsbD 7) = false)) →
      s.fgPixel = { pixel := 0#2, pal := 0#3, front := false, slot := none })

/-- Rules R224 and R225, with the palette address of rule R228, which gives the table that rule R231 infers. -/
def Obligations.CompositionTable : Prop :=
  ∀ (bg : BgPixel) (fg : FgPixel),
    let out := (colourAddr (compose bg fg)).toNat
    let bgAddr := 0x3F00 + 4 * bg.pal.toNat + bg.pixel.toNat
    let fgAddr := 0x3F00 + 4 * fg.pal.toNat + fg.pixel.toNat
    (bg.pixel = 0#2 → fg.pixel = 0#2 → out = 0x3F00) ∧
    (bg.pixel = 0#2 → fg.pixel ≠ 0#2 → out = fgAddr) ∧
    (bg.pixel ≠ 0#2 → fg.pixel = 0#2 → out = bgAddr) ∧
    (bg.pixel ≠ 0#2 → fg.pixel ≠ 0#2 → fg.front = true → out = fgAddr) ∧
    (bg.pixel ≠ 0#2 → fg.pixel ≠ 0#2 → fg.front = false → out = bgAddr)

/-- Rules R228, R229 and R230: at dots 1 … 256 of a visible scanline the pixel at column `dot − 1` takes the low six
bits of the byte read at the composed palette address; every other pixel, and at any other dot every pixel, is as
before. -/
def Obligations.TickDrawsOnePixel : Prop :=
  ∀ s : State, s.mapper.attached = true → ¬ s.SkipsDot → ∃ t, exec .tick s = .next t ∧
    (s.VisibleLine → 1 ≤ s.timing.dot → s.timing.dot ≤ 256 →
      t.back.read (s.timing.dot - 1) s.timing.scanline.toNat =
        (s.atCompositor.readValue
          (ppuAddr (colourAddr (compose s.atCompositor.bgPixel s.atCompositor.fgPixel)))).setWidth 6 ∧
      ∀ x y, x < 256 → ¬(x = s.timing.dot - 1 ∧ y = s.timing.scanline.toNat) → t.back.read x y = s.back.read x y) ∧
    (¬(s.VisibleLine ∧ 1 ≤ s.timing.dot ∧ s.timing.dot ≤ 256) → t.back = s.back)

/-! ### TICK: mapper calls -/

/-- The mapper's side of a TICK (rules R63, R174, R201, R228, R245, R277, R278): which addresses it reads, in order,
each read a question and, when declined, a notification of the latch; then the scanline notification, once at dot 260
of a rendering scanline with a render enable set and at no other dot. The bound, at most 17 reads and at most 2 at any
dot but 340, is the spec's own inference in rule R240. The mirroring question in the calls is log entry 9. -/
def Obligations.TickMapperCalls : Prop :=
  ∀ s : State, s.mapper.attached = true → ∃ t calls, exec .tick s = .next t ∧ t.trace = calls ++ s.trace ∧
    (¬ s.SkipsDot →
      calls.reverse = s.mapper.transcript s.tickReads ++
        (if -1 ≤ s.timing.scanline ∧ s.timing.scanline ≤ 239 ∧ s.timing.dot = 260 ∧
            (s.bank.mask.getLsbD 3 || s.bank.mask.getLsbD 4) = true
          then [.onScanlineBoundary] else []) ∧
      t.mapper = s.mapper.afterReads s.tickReads.length) ∧
    (s.RenderingLine → s.timing.dot = 260 → (s.bank.mask.getLsbD 3 || s.bank.mask.getLsbD 4) = true →
      calls.count .onScanlineBoundary = 1) ∧
    (¬(s.RenderingLine ∧ s.timing.dot = 260 ∧ (s.bank.mask.getLsbD 3 || s.bank.mask.getLsbD 4) = true) →
      .onScanlineBoundary ∉ calls) ∧
    (calls.filter MapperCall.isRead).length ≤ 17 ∧
    (s.timing.dot ≠ 340 → (calls.filter MapperCall.isRead).length ≤ 2) ∧
    (∀ a b, .interceptWrite a b ∉ calls)

/-! ### Whole-machine rules -/

/-- Rule R110: only TICK and RESET move the raster or the frame signals, but that ACK_FRAME clears its own. -/
def Obligations.OnlyTickAndResetMoveTheRaster : Prop :=
  ∀ (i : Instr) (s t : State), exec i s = .next t → i ≠ .tick → i ≠ .reset →
    t.timing.scanline = s.timing.scanline ∧ t.timing.dot = s.timing.dot ∧ t.timing.oddFrame = s.timing.oddFrame ∧
    (t.timing.frameComplete ≠ s.timing.frameComplete → i = .ackFrame ∧ t.timing.frameComplete = false)

/-- Who writes memories (rules R31, R45, R73, R302): OAM only WR_OAMDATA; the nametable, palette and pattern
memories only WR_DATA; so neither a TICK nor a RESET. -/
def Obligations.OnlyPortWritesChangeMemory : Prop :=
  ∀ (i : Instr) (s t : State), exec i s = .next t →
    ((∀ d, i ≠ .wrOamdata d) → t.mem.oam = s.mem.oam) ∧
    ((∀ d, i ≠ .wrData d) → t.mem.nt = s.mem.nt ∧ t.mem.pal = s.mem.pal ∧ t.mem.pt = s.mem.pt)

/-- Rule R248: the published frame changes only in the TICK of the wrap, and then it is the whole back buffer; the
back buffer changes only in a TICK. -/
def Obligations.FrontChangesOnlyAtTheWrap : Prop :=
  ∀ (i : Instr) (s t : State), s.Inv → exec i s = .next t →
    (t.front ≠ s.front → i = .tick ∧ s.timing.scanline = 260 ∧ s.timing.dot = 340 ∧ t.front = t.back) ∧
    (t.back ≠ s.back → i = .tick)

/-- Who writes the state that rule R48 calls hidden (rules R24 to R29, R33 to R38, R41), and the OAM cursor (R30): `v`
the address and data ports and a TICK, `t` the control, scroll and address ports, `fineX` the scroll port, `w` the
scroll and address ports and the status read, the read buffer and `lastDataOut` the data read, and the background and
sprite pipelines and `oddFrame` a TICK; RESET writes them all. -/
def Obligations.WritersOfHiddenRegisters : Prop :=
  ∀ (i : Instr) (s t : State), exec i s = .next t → i ≠ .reset →
    (t.bank.v ≠ s.bank.v → (∃ d, i = .wrAddr d ∧ s.bank.w = true) ∨ (∃ d, i = .wrData d) ∨ i = .rdData ∨ i = .tick) ∧
    (t.bank.t ≠ s.bank.t → (∃ d, i = .wrCtrl d) ∨ (∃ d, i = .wrScroll d) ∨ (∃ d, i = .wrAddr d)) ∧
    (t.bank.fineX ≠ s.bank.fineX → ∃ d, i = .wrScroll d ∧ s.bank.w = false) ∧
    (t.bank.w ≠ s.bank.w → (∃ d, i = .wrScroll d) ∨ (∃ d, i = .wrAddr d) ∨ i = .rdStatus) ∧
    (t.bank.readBuffer ≠ s.bank.readBuffer → i = .rdData) ∧
    (t.bank.lastDataOut ≠ s.bank.lastDataOut → i = .rdData) ∧
    (t.bank.oamAddr ≠ s.bank.oamAddr → (∃ d, i = .wrOamaddr d) ∨ (∃ d, i = .wrOamdata d) ∨ i = .rdOamdata) ∧
    (t.bg ≠ s.bg ∨ t.sp ≠ s.sp ∨ t.timing.oddFrame ≠ s.timing.oddFrame → i = .tick)

/-- What an observation is made of (rule R287, kept as log entry 8 says): an operation returns one byte when it is a
read and none otherwise, and takes back no byte and no call; the observation of a run of words is the bytes and the
calls of the first word with the three outputs after it, and then the observation of the rest; a run that reaches a
refusal or a stuck state has none. -/
def Obligations.ObservationOfARun : Prop :=
  (∀ (i : Instr) (s t : State), exec i s = .next t →
    (∃ calls, t.trace = calls ++ s.trace) ∧
    ((i.fields.op = 1#3 ∨ i.fields.op = 2#3) → ∃ b, t.returned = b :: s.returned) ∧
    ((i.fields.op ≠ 1#3 ∧ i.fields.op ≠ 2#3) → t.returned = s.returned)) ∧
  (∀ s : State, observe s [] = some { bytes := [], calls := [], outputs := [] }) ∧
  (∀ (s : State) (ws : List HostWord) (w : HostWord) (i : Instr) (t : State),
    decode w = .ok i → exec i { s with driver := ws } = .next t →
    (∀ o, observe t ws = some o →
      ∃ bytes calls, t.returned = bytes ++ s.returned ∧ t.trace = calls ++ s.trace ∧
        observe s (w :: ws) = some
          { bytes := bytes.reverse ++ o.bytes
            calls := calls.reverse ++ o.calls
            outputs := { nmiPending := t.timing.nmiPending, frameComplete := t.timing.frameComplete, front := t.front } ::
              o.outputs }) ∧
    (observe t ws = none → observe s (w :: ws) = none)) ∧
  (∀ (s : State) (ws : List HostWord) (w : HostWord),
    ((∃ e, decode w = .error e) ∨ (∃ i f, decode w = .ok i ∧ exec i { s with driver := ws } = .fault f)) →
    observe s (w :: ws) = none)

/-! ### Host control and power-on -/

/-- Rules R255, R302 and R303: the values RESET gives, and what it leaves; and rules R49 and R300: power-on has the
same values, so a RESET leaves what power-on gives but for the memories, the frames and the model's own fields. -/
def Obligations.ResetResult : Prop :=
  ∀ s : State, ∃ t, exec .reset s = .next t ∧
    t.bank.ctrl = 0#8 ∧ t.bank.mask = 0#8 ∧ t.bank.status = 0#8 ∧ t.bank.v = 0#15 ∧ t.bank.t = 0#15 ∧
    t.bank.fineX = 0#3 ∧ t.bank.w = false ∧ t.bank.readBuffer = 0#8 ∧ t.bank.lastDataOut = 0#8 ∧
    t.bank.oamAddr = 0#8 ∧
    t.bg = { nextId := 0#8, nextAttr := 0#2, nextLo := 0#8, nextHi := 0#8, patLo := 0#16, patHi := 0#16,
             attrLo := 0#16, attrHi := 0#16 } ∧
    (∀ i : Fin 8, t.sp.slot[i] = { y := 0xFF#8, id := 0xFF#8, attr := 0xFF#8, x := 0xFF#8, lo := 0#8, hi := 0#8 }) ∧
    t.sp.count = 0 ∧ t.sp.zeroPossible = false ∧
    t.timing = { scanline := -1, dot := 0, oddFrame := false, nmiPending := false, frameComplete := false } ∧
    t = { s with bank := t.bank, bg := t.bg, sp := t.sp, timing := t.timing } ∧
    t.bank = State.reset.bank ∧ t.bg = State.reset.bg ∧ t.sp = State.reset.sp ∧ t.timing = State.reset.timing

/-- Rules R256 and R257: each acknowledge clears its own output and changes nothing else. -/
def Obligations.AcknowledgesClearTheirOutput : Prop :=
  ∀ s : State,
    exec .ackNmi s = .next { s with timing.nmiPending := false } ∧
    exec .ackFrame s = .next { s with timing.frameComplete := false }

/-! ### Tile queries -/

/-- Rule R284: a query changes no state of the block and makes no notification; the mapper is only offered reads
(and asked its mirroring, log entry 9). The order of its reads is log entry 10. -/
def Obligations.TileQueriesChangeNothing : Prop :=
  ∀ (s : State) (q : Tile) (t : State),
    ((∃ bank id pal, patternTile bank id pal s = .next (q, t)) ∨
     (∃ nt col row, nametableTile nt col row s = .next (q, t)) ∨ (∃ n, spriteTile n s = .next (q, t))) →
    t = { s with mapper := t.mapper, trace := t.trace } ∧
    ∃ calls, t.trace = calls ++ s.trace ∧
      ∀ c ∈ calls, c = .mirroringMode ∨ ∃ a, c = .interceptRead a

/-- Rule R284: what the three queries show, for a mapper that intercepts none of their reads. -/
def Obligations.TileQueryColours : Prop :=
  ∀ s : State, s.mapper.attached = true → s.mapper.DeclinesReads 194 →
    (∀ (bank : BitVec 1) (id : Byte) (pal : BitVec 3), ∃ q t, patternTile bank id pal s = .next (q, t) ∧
      ∀ c r, c < 8 → r < 8 → (q[c]?.bind (·[r]?)) = some (s.plainTileColour (bank.setWidth 16 <<< 12) id pal c r)) ∧
    (∀ (nt : BitVec 2) (col row : BitVec 5), row.toNat < 30 → ∃ q t, nametableTile nt col row s = .next (q, t) ∧
      let id := s.internalRead (BitVec.ofNat 14 (0x2000 + 1024 * nt.toNat + 32 * row.toNat + col.toNat))
      let at0 := s.internalRead
        (BitVec.ofNat 14 (0x23C0 + 1024 * nt.toNat + 8 * (row.toNat / 4) + col.toNat / 4))
      let pal := BitVec.ofNat 3 (at0.toNat / 4 ^ (col.toNat / 2 % 2 + 2 * (row.toNat / 2 % 2)) % 4)
      ∀ c r, c < 8 → r < 8 → (q[c]?.bind (·[r]?)) =
        some (s.plainTileColour (if s.bank.ctrl.getLsbD 4 then 0x1000#16 else 0#16) id pal c r)) ∧
    (∀ n : BitVec 6, ∃ q t, spriteTile n s = .next (q, t) ∧
      let id := s.oamByte (4 * n.toNat + 1)
      let attr := s.oamByte (4 * n.toNat + 2)
      let tall := s.bank.ctrl.getLsbD 5
      let base := if (if tall then id.getLsbD 0 else s.bank.ctrl.getLsbD 3) then 0x1000#16 else 0#16
      let tile := if tall then id &&& 0xFE#8 else id
      ∀ c r, c < 8 → r < 8 → (q[c]?.bind (·[r]?)) =
        some (s.plainTileColour base tile (BitVec.ofNat 3 (4 + attr.toNat % 4)) c r))
end

