-- ==== Sys2Proof/Laws/Memory.lean ====
section
/-! SUPPORT. Laws of the sparse cells: read after write, other indices untouched, and the canonical form kept
by every memory and frame-buffer operation. -/

namespace Sys2Proof.Machine

variable {α : Type}

@[simp] theorem Cells.lookup_write_same (m : List (Nat × α)) (a : Nat) (x : α) :
    Cells.lookup (Cells.write m a x) a = some x := by
  induction m with
  | nil => simp [Cells.write, Cells.lookup]
  | cons p rest ih =>
    obtain ⟨k, y⟩ := p
    simp only [Cells.write]
    split
    · simp [Cells.lookup]
    · split
      · simp [Cells.lookup]
      · rename_i h1 h2
        simp [Cells.lookup, show ¬ k = a by omega, ih]

theorem Cells.lookup_write_other (m : List (Nat × α)) {a b : Nat} (x : α) (h : b ≠ a) :
    Cells.lookup (Cells.write m a x) b = Cells.lookup m b := by
  induction m with
  | nil => simp [Cells.write, Cells.lookup, Ne.symm h]
  | cons p rest ih =>
    obtain ⟨k, y⟩ := p
    simp only [Cells.write]
    split
    · simp [Cells.lookup, Ne.symm h]
    · split
      · rename_i h1 h2
        subst h2
        simp [Cells.lookup, Ne.symm h]
      · simp [Cells.lookup, ih]

/-- Every entry after a write is the written one or an old one. -/
theorem Cells.mem_write {m : List (Nat × α)} {a : Nat} {x : α} {p : Nat × α} (h : p ∈ Cells.write m a x) :
    p = (a, x) ∨ p ∈ m := by
  induction m with
  | nil => simpa [Cells.write] using h
  | cons q rest ih =>
    obtain ⟨k, y⟩ := q
    simp only [Cells.write] at h
    split at h
    · simpa using h
    · split at h
      · rcases List.mem_cons.1 h with h | h
        · exact .inl h
        · exact .inr (List.mem_cons_of_mem _ h)
      · rcases List.mem_cons.1 h with h | h
        · exact .inr (h ▸ List.mem_cons_self)
        · exact (ih h).imp_right (List.mem_cons_of_mem _)

/-- A write keeps the canonical form. -/
theorem Cells.wf_write {size : Nat} {m : List (Nat × α)} {a : Nat} (x : α) (hm : Cells.wf size m) (ha : a < size) :
    Cells.wf size (Cells.write m a x) := by
  refine ⟨?_, fun p hp => ?_⟩
  · have hs := hm.1
    clear hm
    induction m with
    | nil => simp [Cells.write]
    | cons q rest ih =>
      obtain ⟨k, y⟩ := q
      rw [List.pairwise_cons] at hs
      simp only [Cells.write]
      split
      · rename_i hlt
        refine List.pairwise_cons.2 ⟨fun p hp => ?_, List.pairwise_cons.2 hs⟩
        rcases List.mem_cons.1 hp with rfl | hp
        · exact hlt
        · exact Nat.lt_trans hlt (hs.1 p hp)
      · split
        · rename_i _ heq
          subst heq
          exact List.pairwise_cons.2 hs
        · refine List.pairwise_cons.2 ⟨fun p hp => ?_, ih hs.2⟩
          rcases Cells.mem_write hp with rfl | hp
          · simp only; omega
          · exact hs.1 p hp
  · rcases Cells.mem_write hp with rfl | hp
    · exact ha
    · exact hm.2 p hp

@[simp] theorem Memory.read_write_same (r : Region) (m : Memory) (k : Nat) (b : Byte) :
    Memory.read r (Memory.write m k b) k = b := by
  simp [Memory.read, Memory.write]

theorem Memory.read_write_other (r : Region) (m : Memory) {k j : Nat} (b : Byte) (h : j ≠ k) :
    Memory.read r (Memory.write m k b) j = Memory.read r m j := by
  simp [Memory.read, Memory.write, Cells.lookup_write_other m b h]

theorem Memory.wf_write {size : Nat} {m : Memory} {k : Nat} (b : Byte) (hm : Memory.wf size m) (hk : k < size) :
    Memory.wf size (Memory.write m k b) :=
  Cells.wf_write b hm hk

/-- Two pixels inside the 256 × 240 raster have different indices unless they are the same pixel. -/
theorem pixelIndex_inj {x y x' y' : Nat} (hx : x < 256) (hx' : x' < 256) (h : pixelIndex x y = pixelIndex x' y') :
    x = x' ∧ y = y' := by
  unfold pixelIndex at h
  omega

@[simp] theorem Frame.read_write_same (f : Frame) (x y : Nat) (c : Colour) : (f.write x y c).read x y = c := by
  simp [Frame.read, Frame.write]

theorem Frame.read_write_other (f : Frame) {x y x' y' : Nat} (c : Colour) (hx : x < 256) (hx' : x' < 256)
    (h : ¬(x' = x ∧ y' = y)) : (f.write x y c).read x' y' = f.read x' y' := by
  have hne : pixelIndex x' y' ≠ pixelIndex x y := fun e => h (pixelIndex_inj hx' hx e)
  simp [Frame.read, Frame.write, Cells.lookup_write_other _ c hne]

theorem Frame.wf_write {f : Frame} {x y : Nat} (c : Colour) (hf : f.wf) (hx : x < 256) (hy : y < 240) :
    (f.write x y c).wf :=
  Cells.wf_write c hf (by unfold pixelIndex; omega)

/-! Every index an access computes is inside its memory. -/

theorem ptIndex_lt (a : PpuAddr) : ptIndex a < 8192 := by
  unfold ptIndex
  have h1 := (a.extractLsb' 12 1).isLt
  have h2 := (a.extractLsb' 0 12).isLt
  omega

theorem ntIndex_lt (m : Mirroring) (a : PpuAddr) : ntIndex m a < 2048 := by
  unfold ntIndex
  have h1 := (ntBank m a).isLt
  have h2 := (a.extractLsb' 0 10).isLt
  omega

theorem palIndex_lt (a : PpuAddr) : palIndex a < 32 := by
  unfold palIndex
  have h := (a.extractLsb' 0 5).isLt
  simp only
  split <;> omega

end Sys2Proof.Machine
end

