-- ==== Sys2Proof/Laws/State.lean ====
section
/-! SUPPORT. For every named update of the state, what each field holds after it. -/

namespace Sys2Proof.Machine

variable (s : State)

section
variable (c : MapperCall)
@[simp] theorem State.emit_bank : (s.emit c).bank = s.bank := rfl
@[simp] theorem State.emit_mem : (s.emit c).mem = s.mem := rfl
@[simp] theorem State.emit_bg : (s.emit c).bg = s.bg := rfl
@[simp] theorem State.emit_sp : (s.emit c).sp = s.sp := rfl
@[simp] theorem State.emit_timing : (s.emit c).timing = s.timing := rfl
@[simp] theorem State.emit_back : (s.emit c).back = s.back := rfl
@[simp] theorem State.emit_front : (s.emit c).front = s.front := rfl
@[simp] theorem State.emit_mapper : (s.emit c).mapper = s.mapper := rfl
@[simp] theorem State.emit_statusLowSource : (s.emit c).statusLowSource = s.statusLowSource := rfl
@[simp] theorem State.emit_draws : (s.emit c).draws = s.draws := rfl
@[simp] theorem State.emit_driver : (s.emit c).driver = s.driver := rfl
@[simp] theorem State.emit_returned : (s.emit c).returned = s.returned := rfl
@[simp] theorem State.emit_trace : (s.emit c).trace = c :: s.trace := rfl
end

section
variable (b : Byte)
@[simp] theorem State.giveBack_bank : (s.giveBack b).bank = s.bank := rfl
@[simp] theorem State.giveBack_mem : (s.giveBack b).mem = s.mem := rfl
@[simp] theorem State.giveBack_bg : (s.giveBack b).bg = s.bg := rfl
@[simp] theorem State.giveBack_sp : (s.giveBack b).sp = s.sp := rfl
@[simp] theorem State.giveBack_timing : (s.giveBack b).timing = s.timing := rfl
@[simp] theorem State.giveBack_back : (s.giveBack b).back = s.back := rfl
@[simp] theorem State.giveBack_front : (s.giveBack b).front = s.front := rfl
@[simp] theorem State.giveBack_mapper : (s.giveBack b).mapper = s.mapper := rfl
@[simp] theorem State.giveBack_statusLowSource : (s.giveBack b).statusLowSource = s.statusLowSource := rfl
@[simp] theorem State.giveBack_draws : (s.giveBack b).draws = s.draws := rfl
@[simp] theorem State.giveBack_driver : (s.giveBack b).driver = s.driver := rfl
@[simp] theorem State.giveBack_returned : (s.giveBack b).returned = b :: s.returned := rfl
@[simp] theorem State.giveBack_trace : (s.giveBack b).trace = s.trace := rfl
end

@[simp] theorem State.giveBackDraw_bank : (s.giveBackDraw).bank = s.bank := rfl
@[simp] theorem State.giveBackDraw_mem : (s.giveBackDraw).mem = s.mem := rfl
@[simp] theorem State.giveBackDraw_bg : (s.giveBackDraw).bg = s.bg := rfl
@[simp] theorem State.giveBackDraw_sp : (s.giveBackDraw).sp = s.sp := rfl
@[simp] theorem State.giveBackDraw_timing : (s.giveBackDraw).timing = s.timing := rfl
@[simp] theorem State.giveBackDraw_back : (s.giveBackDraw).back = s.back := rfl
@[simp] theorem State.giveBackDraw_front : (s.giveBackDraw).front = s.front := rfl
@[simp] theorem State.giveBackDraw_mapper : (s.giveBackDraw).mapper = s.mapper := rfl
@[simp] theorem State.giveBackDraw_statusLowSource : (s.giveBackDraw).statusLowSource = s.statusLowSource := rfl
@[simp] theorem State.giveBackDraw_draws : (s.giveBackDraw).draws = s.draws + 1 := rfl
@[simp] theorem State.giveBackDraw_driver : (s.giveBackDraw).driver = s.driver := rfl
@[simp] theorem State.giveBackDraw_returned : (s.giveBackDraw).returned = Config.portDraw s.draws :: s.returned := rfl
@[simp] theorem State.giveBackDraw_trace : (s.giveBackDraw).trace = s.trace := rfl

section
variable (n : Bool) (a : PpuAddr)
@[simp] theorem State.afterRead_bank : (s.afterRead n a).bank = s.bank := rfl
@[simp] theorem State.afterRead_mem : (s.afterRead n a).mem = s.mem := rfl
@[simp] theorem State.afterRead_bg : (s.afterRead n a).bg = s.bg := rfl
@[simp] theorem State.afterRead_sp : (s.afterRead n a).sp = s.sp := rfl
@[simp] theorem State.afterRead_timing : (s.afterRead n a).timing = s.timing := rfl
@[simp] theorem State.afterRead_back : (s.afterRead n a).back = s.back := rfl
@[simp] theorem State.afterRead_front : (s.afterRead n a).front = s.front := rfl
@[simp] theorem State.afterRead_mapper : (s.afterRead n a).mapper = s.mapper.afterRead := rfl
@[simp] theorem State.afterRead_statusLowSource : (s.afterRead n a).statusLowSource = s.statusLowSource := rfl
@[simp] theorem State.afterRead_draws : (s.afterRead n a).draws = s.draws := rfl
@[simp] theorem State.afterRead_driver : (s.afterRead n a).driver = s.driver := rfl
@[simp] theorem State.afterRead_returned : (s.afterRead n a).returned = s.returned := rfl
@[simp] theorem State.afterRead_trace : (s.afterRead n a).trace = s.readCalls n a ++ s.trace := rfl
end

section
variable (a : BusAddr) (b : Byte)
@[simp] theorem State.memWrite_bank : (s.memWrite a b).bank = s.bank := rfl
@[simp] theorem State.memWrite_mem : (s.memWrite a b).mem = if s.mapper.writeAnswer (ppuAddr a) b then s.mem else s.internalWrite (ppuAddr a) b := rfl
@[simp] theorem State.memWrite_bg : (s.memWrite a b).bg = s.bg := rfl
@[simp] theorem State.memWrite_sp : (s.memWrite a b).sp = s.sp := rfl
@[simp] theorem State.memWrite_timing : (s.memWrite a b).timing = s.timing := rfl
@[simp] theorem State.memWrite_back : (s.memWrite a b).back = s.back := rfl
@[simp] theorem State.memWrite_front : (s.memWrite a b).front = s.front := rfl
@[simp] theorem State.memWrite_mapper : (s.memWrite a b).mapper = s.mapper.afterWrite := rfl
@[simp] theorem State.memWrite_statusLowSource : (s.memWrite a b).statusLowSource = s.statusLowSource := rfl
@[simp] theorem State.memWrite_draws : (s.memWrite a b).draws = s.draws := rfl
@[simp] theorem State.memWrite_driver : (s.memWrite a b).driver = s.driver := rfl
@[simp] theorem State.memWrite_returned : (s.memWrite a b).returned = s.returned := rfl
@[simp] theorem State.memWrite_trace : (s.memWrite a b).trace = s.writeCalls (ppuAddr a) b ++ s.trace := rfl
end

@[simp] theorem State.incV_bank : (s.incV).bank = { s.bank with v := s.bank.v + stride s.bank.ctrl } := rfl
@[simp] theorem State.incV_mem : (s.incV).mem = s.mem := rfl
@[simp] theorem State.incV_bg : (s.incV).bg = s.bg := rfl
@[simp] theorem State.incV_sp : (s.incV).sp = s.sp := rfl
@[simp] theorem State.incV_timing : (s.incV).timing = s.timing := rfl
@[simp] theorem State.incV_back : (s.incV).back = s.back := rfl
@[simp] theorem State.incV_front : (s.incV).front = s.front := rfl
@[simp] theorem State.incV_mapper : (s.incV).mapper = s.mapper := rfl
@[simp] theorem State.incV_statusLowSource : (s.incV).statusLowSource = s.statusLowSource := rfl
@[simp] theorem State.incV_draws : (s.incV).draws = s.draws := rfl
@[simp] theorem State.incV_driver : (s.incV).driver = s.driver := rfl
@[simp] theorem State.incV_returned : (s.incV).returned = s.returned := rfl
@[simp] theorem State.incV_trace : (s.incV).trace = s.trace := rfl

@[simp] theorem State.incOamAddr_bank : (s.incOamAddr).bank = { s.bank with oamAddr := s.bank.oamAddr + 1#8 } := rfl
@[simp] theorem State.incOamAddr_mem : (s.incOamAddr).mem = s.mem := rfl
@[simp] theorem State.incOamAddr_bg : (s.incOamAddr).bg = s.bg := rfl
@[simp] theorem State.incOamAddr_sp : (s.incOamAddr).sp = s.sp := rfl
@[simp] theorem State.incOamAddr_timing : (s.incOamAddr).timing = s.timing := rfl
@[simp] theorem State.incOamAddr_back : (s.incOamAddr).back = s.back := rfl
@[simp] theorem State.incOamAddr_front : (s.incOamAddr).front = s.front := rfl
@[simp] theorem State.incOamAddr_mapper : (s.incOamAddr).mapper = s.mapper := rfl
@[simp] theorem State.incOamAddr_statusLowSource : (s.incOamAddr).statusLowSource = s.statusLowSource := rfl
@[simp] theorem State.incOamAddr_draws : (s.incOamAddr).draws = s.draws := rfl
@[simp] theorem State.incOamAddr_driver : (s.incOamAddr).driver = s.driver := rfl
@[simp] theorem State.incOamAddr_returned : (s.incOamAddr).returned = s.returned := rfl
@[simp] theorem State.incOamAddr_trace : (s.incOamAddr).trace = s.trace := rfl

@[simp] theorem State.vblankStart_bank : (s.vblankStart).bank = { s.bank with status := setVblank s.bank.status } := rfl
@[simp] theorem State.vblankStart_mem : (s.vblankStart).mem = s.mem := rfl
@[simp] theorem State.vblankStart_bg : (s.vblankStart).bg = s.bg := rfl
@[simp] theorem State.vblankStart_sp : (s.vblankStart).sp = s.sp := rfl
@[simp] theorem State.vblankStart_timing : (s.vblankStart).timing = { s.timing with nmiPending := s.timing.nmiPending || ctrlNmiEnable s.bank.ctrl } := rfl
@[simp] theorem State.vblankStart_back : (s.vblankStart).back = s.back := rfl
@[simp] theorem State.vblankStart_front : (s.vblankStart).front = s.front := rfl
@[simp] theorem State.vblankStart_mapper : (s.vblankStart).mapper = s.mapper := rfl
@[simp] theorem State.vblankStart_statusLowSource : (s.vblankStart).statusLowSource = s.statusLowSource := rfl
@[simp] theorem State.vblankStart_draws : (s.vblankStart).draws = s.draws := rfl
@[simp] theorem State.vblankStart_driver : (s.vblankStart).driver = s.driver := rfl
@[simp] theorem State.vblankStart_returned : (s.vblankStart).returned = s.returned := rfl
@[simp] theorem State.vblankStart_trace : (s.vblankStart).trace = s.trace := rfl

@[simp] theorem State.clearNmi_bank : (s.clearNmi).bank = s.bank := rfl
@[simp] theorem State.clearNmi_mem : (s.clearNmi).mem = s.mem := rfl
@[simp] theorem State.clearNmi_bg : (s.clearNmi).bg = s.bg := rfl
@[simp] theorem State.clearNmi_sp : (s.clearNmi).sp = s.sp := rfl
@[simp] theorem State.clearNmi_timing : (s.clearNmi).timing = { s.timing with nmiPending := false } := rfl
@[simp] theorem State.clearNmi_back : (s.clearNmi).back = s.back := rfl
@[simp] theorem State.clearNmi_front : (s.clearNmi).front = s.front := rfl
@[simp] theorem State.clearNmi_mapper : (s.clearNmi).mapper = s.mapper := rfl
@[simp] theorem State.clearNmi_statusLowSource : (s.clearNmi).statusLowSource = s.statusLowSource := rfl
@[simp] theorem State.clearNmi_draws : (s.clearNmi).draws = s.draws := rfl
@[simp] theorem State.clearNmi_driver : (s.clearNmi).driver = s.driver := rfl
@[simp] theorem State.clearNmi_returned : (s.clearNmi).returned = s.returned := rfl
@[simp] theorem State.clearNmi_trace : (s.clearNmi).trace = s.trace := rfl

@[simp] theorem State.clearFrameComplete_bank : (s.clearFrameComplete).bank = s.bank := rfl
@[simp] theorem State.clearFrameComplete_mem : (s.clearFrameComplete).mem = s.mem := rfl
@[simp] theorem State.clearFrameComplete_bg : (s.clearFrameComplete).bg = s.bg := rfl
@[simp] theorem State.clearFrameComplete_sp : (s.clearFrameComplete).sp = s.sp := rfl
@[simp] theorem State.clearFrameComplete_timing : (s.clearFrameComplete).timing = { s.timing with frameComplete := false } := rfl
@[simp] theorem State.clearFrameComplete_back : (s.clearFrameComplete).back = s.back := rfl
@[simp] theorem State.clearFrameComplete_front : (s.clearFrameComplete).front = s.front := rfl
@[simp] theorem State.clearFrameComplete_mapper : (s.clearFrameComplete).mapper = s.mapper := rfl
@[simp] theorem State.clearFrameComplete_statusLowSource : (s.clearFrameComplete).statusLowSource = s.statusLowSource := rfl
@[simp] theorem State.clearFrameComplete_draws : (s.clearFrameComplete).draws = s.draws := rfl
@[simp] theorem State.clearFrameComplete_driver : (s.clearFrameComplete).driver = s.driver := rfl
@[simp] theorem State.clearFrameComplete_returned : (s.clearFrameComplete).returned = s.returned := rfl
@[simp] theorem State.clearFrameComplete_trace : (s.clearFrameComplete).trace = s.trace := rfl

@[simp] theorem State.clearVblankAndToggle_bank : (s.clearVblankAndToggle).bank = { s.bank with status := clearVblank s.bank.status, w := false } := rfl
@[simp] theorem State.clearVblankAndToggle_mem : (s.clearVblankAndToggle).mem = s.mem := rfl
@[simp] theorem State.clearVblankAndToggle_bg : (s.clearVblankAndToggle).bg = s.bg := rfl
@[simp] theorem State.clearVblankAndToggle_sp : (s.clearVblankAndToggle).sp = s.sp := rfl
@[simp] theorem State.clearVblankAndToggle_timing : (s.clearVblankAndToggle).timing = s.timing := rfl
@[simp] theorem State.clearVblankAndToggle_back : (s.clearVblankAndToggle).back = s.back := rfl
@[simp] theorem State.clearVblankAndToggle_front : (s.clearVblankAndToggle).front = s.front := rfl
@[simp] theorem State.clearVblankAndToggle_mapper : (s.clearVblankAndToggle).mapper = s.mapper := rfl
@[simp] theorem State.clearVblankAndToggle_statusLowSource : (s.clearVblankAndToggle).statusLowSource = s.statusLowSource := rfl
@[simp] theorem State.clearVblankAndToggle_draws : (s.clearVblankAndToggle).draws = s.draws := rfl
@[simp] theorem State.clearVblankAndToggle_driver : (s.clearVblankAndToggle).driver = s.driver := rfl
@[simp] theorem State.clearVblankAndToggle_returned : (s.clearVblankAndToggle).returned = s.returned := rfl
@[simp] theorem State.clearVblankAndToggle_trace : (s.clearVblankAndToggle).trace = s.trace := rfl

@[simp] theorem State.preRenderClear_bank : (s.preRenderClear).bank = { s.bank with status := clearStatusFlags s.bank.status } := rfl
@[simp] theorem State.preRenderClear_mem : (s.preRenderClear).mem = s.mem := rfl
@[simp] theorem State.preRenderClear_bg : (s.preRenderClear).bg = s.bg := rfl
@[simp] theorem State.preRenderClear_sp : (s.preRenderClear).sp = s.sp.clearShifters := rfl
@[simp] theorem State.preRenderClear_timing : (s.preRenderClear).timing = s.timing := rfl
@[simp] theorem State.preRenderClear_back : (s.preRenderClear).back = s.back := rfl
@[simp] theorem State.preRenderClear_front : (s.preRenderClear).front = s.front := rfl
@[simp] theorem State.preRenderClear_mapper : (s.preRenderClear).mapper = s.mapper := rfl
@[simp] theorem State.preRenderClear_statusLowSource : (s.preRenderClear).statusLowSource = s.statusLowSource := rfl
@[simp] theorem State.preRenderClear_draws : (s.preRenderClear).draws = s.draws := rfl
@[simp] theorem State.preRenderClear_driver : (s.preRenderClear).driver = s.driver := rfl
@[simp] theorem State.preRenderClear_returned : (s.preRenderClear).returned = s.returned := rfl
@[simp] theorem State.preRenderClear_trace : (s.preRenderClear).trace = s.trace := rfl

@[simp] theorem State.frameWrap_bank : (s.frameWrap).bank = s.bank := rfl
@[simp] theorem State.frameWrap_mem : (s.frameWrap).mem = s.mem := rfl
@[simp] theorem State.frameWrap_bg : (s.frameWrap).bg = s.bg := rfl
@[simp] theorem State.frameWrap_sp : (s.frameWrap).sp = s.sp := rfl
@[simp] theorem State.frameWrap_timing : (s.frameWrap).timing = { s.timing with scanline := -1, frameComplete := true, oddFrame := !s.timing.oddFrame } := rfl
@[simp] theorem State.frameWrap_back : (s.frameWrap).back = s.back := rfl
@[simp] theorem State.frameWrap_front : (s.frameWrap).front = s.back := rfl
@[simp] theorem State.frameWrap_mapper : (s.frameWrap).mapper = s.mapper := rfl
@[simp] theorem State.frameWrap_statusLowSource : (s.frameWrap).statusLowSource = s.statusLowSource := rfl
@[simp] theorem State.frameWrap_draws : (s.frameWrap).draws = s.draws := rfl
@[simp] theorem State.frameWrap_driver : (s.frameWrap).driver = s.driver := rfl
@[simp] theorem State.frameWrap_returned : (s.frameWrap).returned = s.returned := rfl
@[simp] theorem State.frameWrap_trace : (s.frameWrap).trace = s.trace := rfl

@[simp] theorem State.reinitialize_bank : (s.reinitialize).bank = RegisterBank.reset := rfl
@[simp] theorem State.reinitialize_mem : (s.reinitialize).mem = s.mem := rfl
@[simp] theorem State.reinitialize_bg : (s.reinitialize).bg = Background.reset := rfl
@[simp] theorem State.reinitialize_sp : (s.reinitialize).sp = Sprites.reset := rfl
@[simp] theorem State.reinitialize_timing : (s.reinitialize).timing = Timing.reset := rfl
@[simp] theorem State.reinitialize_back : (s.reinitialize).back = s.back := rfl
@[simp] theorem State.reinitialize_front : (s.reinitialize).front = s.front := rfl
@[simp] theorem State.reinitialize_mapper : (s.reinitialize).mapper = s.mapper := rfl
@[simp] theorem State.reinitialize_statusLowSource : (s.reinitialize).statusLowSource = s.statusLowSource := rfl
@[simp] theorem State.reinitialize_draws : (s.reinitialize).draws = s.draws := rfl
@[simp] theorem State.reinitialize_driver : (s.reinitialize).driver = s.driver := rfl
@[simp] theorem State.reinitialize_returned : (s.reinitialize).returned = s.returned := rfl
@[simp] theorem State.reinitialize_trace : (s.reinitialize).trace = s.trace := rfl

@[simp] theorem State.memRead_fst (a : BusAddr) : (s.memRead a).1 = s.readValue (ppuAddr a) := rfl
@[simp] theorem State.memRead_snd (a : BusAddr) : (s.memRead a).2 = s.afterRead true (ppuAddr a) := rfl
@[simp] theorem State.memReadDbg_fst (a : BusAddr) : (s.memReadDbg a).1 = s.readValue (ppuAddr a) := rfl
@[simp] theorem State.memReadDbg_snd (a : BusAddr) : (s.memReadDbg a).2 = s.afterRead false (ppuAddr a) := rfl

variable (m : Mapper)

@[simp] theorem Mapper.afterRead_attached : m.afterRead.attached = m.attached := rfl
@[simp] theorem Mapper.afterRead_mirroring : m.afterRead.mirroring = m.mirroring := rfl
@[simp] theorem Mapper.afterRead_readAnswers : m.afterRead.readAnswers = m.readAnswers.tail := rfl
@[simp] theorem Mapper.afterRead_writeAnswers : m.afterRead.writeAnswers = m.writeAnswers := rfl
@[simp] theorem Mapper.afterWrite_attached : m.afterWrite.attached = m.attached := rfl
@[simp] theorem Mapper.afterWrite_mirroring : m.afterWrite.mirroring = m.mirroring := rfl
@[simp] theorem Mapper.afterWrite_readAnswers : m.afterWrite.readAnswers = m.readAnswers := rfl
@[simp] theorem Mapper.afterWrite_writeAnswers : m.afterWrite.writeAnswers = m.writeAnswers.tail := rfl

/-- With a mapper attached, an operation that needs one takes its step. -/
theorem State.withMapper_attached {α : Type} {s : State} (x : α) (h : s.mapper.attached = true) :
    s.withMapper x = .next x := by
  simp [State.withMapper, h]

/-- Without one it is stuck (rule R271). -/
theorem State.withMapper_missing {α : Type} {s : State} (x : α) (h : s.mapper.attached = false) :
    s.withMapper x = .fault .missingMapper := by
  simp [State.withMapper, h]

end Sys2Proof.Machine
end

