-- ==== Sys2Proof/Laws/Access.lean ====
section
/-! SUPPORT. The access through the mapper (rules R63 to R65, R72): what a read and a write can do, and what
internal decode answers after a write. -/

namespace Sys2Proof.Machine

/-- Two addresses of the PPU address space reach one cell: the same range, and the same index in it. -/
def sameCell (m : Mirroring) (a b : PpuAddr) : Prop :=
  if inPatternRange a then inPatternRange b = true ∧ ptIndex a = ptIndex b
  else if inNametableRange a then inNametableRange b = true ∧ ntIndex m a = ntIndex m b
  else inPatternRange b = false ∧ inNametableRange b = false ∧ palIndex a = palIndex b

theorem inPatternRange_of_inNametableRange {a : PpuAddr} (h : inNametableRange a = true) : inPatternRange a = false := by
  unfold inNametableRange at h
  revert h
  cases inPatternRange a <;> simp

/-- When the mapper declines, the value is the internal cell's. -/
theorem State.readValue_declined {s : State} {a : PpuAddr} (h : s.mapper.readAnswer a = none) :
    s.readValue a = s.internalRead a := by
  simp [State.readValue, h]

/-- When the mapper intercepts, the value is its own (rule R84). -/
theorem State.readValue_intercepted {s : State} {a : PpuAddr} {b : Byte} (h : s.mapper.readAnswer a = some b) :
    s.readValue a = b := by
  simp [State.readValue, h]

/-- Internal decode sees only the memories, the gray bit's register and the mirroring. -/
theorem State.internalRead_congr {s t : State} (h1 : t.mem = s.mem) (h2 : t.bank.mask = s.bank.mask)
    (h3 : t.mapper.mirroring = s.mapper.mirroring) (a : PpuAddr) : t.internalRead a = s.internalRead a := by
  simp [State.internalRead, h1, h2, h3]

/-- What the internal write of `b` at `a` leaves to be read at `a'`. -/
theorem State.internalRead_after_write {s t : State} {a : PpuAddr} {b : Byte} (h1 : t.mem = s.internalWrite a b)
    (h2 : t.bank.mask = s.bank.mask) (h3 : t.mapper.mirroring = s.mapper.mirroring) (a' : PpuAddr) :
    t.internalRead a' =
      if inPatternRange a then
        if inPatternRange a' = true ∧ ptIndex a' = ptIndex a then b else s.internalRead a'
      else if inNametableRange a then
        if inNametableRange a' = true ∧ ntIndex s.mapper.mirroring a' = ntIndex s.mapper.mirroring a then b
        else s.internalRead a'
      else if inPatternRange a' = false ∧ inNametableRange a' = false ∧ palIndex a' = palIndex a then
        b &&& palMask s.bank.mask
      else s.internalRead a' := by
  unfold State.internalRead
  rw [h1, h2, h3]
  unfold State.internalWrite
  by_cases hp : inPatternRange a = true
  · simp only [hp, if_true]
    by_cases hp' : inPatternRange a' = true
    · by_cases hk : ptIndex a' = ptIndex a
      · simp [hp', hk]
      · simp [hp', hk, Memory.read_write_other _ _ _ hk]
    · simp [hp']
  · simp only [hp, Bool.false_eq_true, if_false]
    by_cases hn : inNametableRange a = true
    · simp only [hn, if_true]
      by_cases hn' : inNametableRange a' = true
      · have hp' := inPatternRange_of_inNametableRange hn'
        by_cases hk : ntIndex s.mapper.mirroring a' = ntIndex s.mapper.mirroring a
        · simp [hp', hn', hk]
        · simp [hp', hn', hk, Memory.read_write_other _ _ _ hk]
      · simp [hn']
    · simp only [hn, Bool.false_eq_true, if_false]
      by_cases hp' : inPatternRange a' = true
      · simp [hp']
      · by_cases hn' : inNametableRange a' = true
        · simp [hp', hn']
        · by_cases hk : palIndex a' = palIndex a
          · simp [hp', hn', hk]
          · simp [hp', hn', hk, Memory.read_write_other _ _ _ hk]

/-- The canonical form of the four memories together. -/
structure Memories.Wf (m : Memories) : Prop where
  oam : Memory.wf 256 m.oam
  nt : Memory.wf 2048 m.nt
  pal : Memory.wf 32 m.pal
  pt : Memory.wf 8192 m.pt

/-- An internal write keeps the canonical form of every memory. -/
theorem State.internalWrite_wf {s : State} (h : s.mem.Wf) (a : PpuAddr) (b : Byte) : (s.internalWrite a b).Wf := by
  unfold State.internalWrite
  split
  · exact { h with pt := Memory.wf_write b h.pt (ptIndex_lt a) }
  · split
    · exact { h with nt := Memory.wf_write b h.nt (ntIndex_lt _ a) }
    · exact { h with pal := Memory.wf_write b h.pal (palIndex_lt a) }

/-- A write through the mapper keeps the canonical form of every memory. -/
theorem State.memWrite_wf {s : State} (h : s.mem.Wf) (a : BusAddr) (b : Byte) : (s.memWrite a b).mem.Wf := by
  rw [State.memWrite_mem]
  split
  · exact h
  · exact State.internalWrite_wf h _ b

/-- A read always asks the mapper: its calls are never empty. -/
theorem State.readCalls_ne_nil (s : State) (n : Bool) (a : PpuAddr) : s.readCalls n a ≠ [] := by
  unfold State.readCalls
  split <;> simp

/-- A write always asks the mapper. -/
theorem State.writeCalls_ne_nil (s : State) (a : PpuAddr) (b : Byte) : s.writeCalls a b ≠ [] := by
  unfold State.writeCalls
  split <;> simp

end Sys2Proof.Machine
end

