-- ==== Sys2Proof/Laws/Words.lean ====
section
/-! SUPPORT. The sub-fields of a composite address: reading a field back, the five fields determine the
address, and a sub-field write changes only its own bits (rule R25). -/

namespace Sys2Proof.Machine

section Fields

variable (fy : BitVec 3) (ny nx : BitVec 1) (cy cx : BitVec 5)

/-- Every bit of a composite address, by field (rule R24). -/
theorem getLsbD_compositeAddr (i : Nat) :
    (compositeAddr fy ny nx cy cx).getLsbD i =
      if i < 5 then cx.getLsbD i
      else if i < 10 then cy.getLsbD (i - 5)
      else if i < 11 then nx.getLsbD (i - 10)
      else if i < 12 then ny.getLsbD (i - 11)
      else fy.getLsbD (i - 12) := by
  have h : (compositeAddr fy ny nx cy cx).getLsbD i =
      BitVec.getLsbD (w := 3 + 1 + 1 + 5 + 5) (fy ++ ny ++ nx ++ cy ++ cx) i := rfl
  rw [h]
  simp only [BitVec.getLsbD_append]
  by_cases h1 : i < 5
  · simp [h1]
  by_cases h2 : i < 10
  · simp [h1, h2, show i - 5 < 5 by omega]
  by_cases h3 : i < 11
  · obtain rfl : i = 10 := by omega
    simp
  by_cases h4 : i < 12
  · obtain rfl : i = 11 := by omega
    simp
  · simp [h1, h2, h3, h4, show ¬ i - 5 < 5 by omega, show ¬ i - 5 - 5 < 1 by omega, show ¬ i - 5 - 5 - 1 < 1 by omega,
      show i - 5 - 5 - 1 - 1 = i - 12 by omega]

@[simp] theorem coarseX_compositeAddr : coarseX (compositeAddr fy ny nx cy cx) = cx :=
  BitVec.eq_of_getLsbD_eq fun i hi => by
    simp [coarseX, getLsbD_compositeAddr, hi]

@[simp] theorem coarseY_compositeAddr : coarseY (compositeAddr fy ny nx cy cx) = cy :=
  BitVec.eq_of_getLsbD_eq fun i hi => by
    simp [coarseY, getLsbD_compositeAddr, hi, show 5 + i < 10 by omega]

@[simp] theorem ntX_compositeAddr : ntX (compositeAddr fy ny nx cy cx) = nx :=
  BitVec.eq_of_getLsbD_eq fun i hi => by
    simp [ntX, getLsbD_compositeAddr, hi, show ¬ 10 + i < 5 by omega,
      show ¬ 10 + i < 10 by omega, show 10 + i < 11 by omega]

@[simp] theorem ntY_compositeAddr : ntY (compositeAddr fy ny nx cy cx) = ny :=
  BitVec.eq_of_getLsbD_eq fun i hi => by
    simp [ntY, getLsbD_compositeAddr, hi, show ¬ 11 + i < 5 by omega,
      show ¬ 11 + i < 10 by omega, show ¬ 11 + i < 11 by omega, show 11 + i < 12 by omega]

@[simp] theorem fineY_compositeAddr : fineY (compositeAddr fy ny nx cy cx) = fy :=
  BitVec.eq_of_getLsbD_eq fun i hi => by
    simp [fineY, getLsbD_compositeAddr, hi, show ¬ 12 + i < 5 by omega,
      show ¬ 12 + i < 10 by omega, show ¬ 12 + i < 11 by omega, show ¬ 12 + i < 12 by omega]

end Fields

/-- The five fields determine the address. -/
theorem compositeAddr_eta (a : CompositeAddr) :
    compositeAddr (fineY a) (ntY a) (ntX a) (coarseY a) (coarseX a) = a :=
  BitVec.eq_of_getLsbD_eq fun i hi => by
    rw [getLsbD_compositeAddr]
    simp only [fineY, ntY, ntX, coarseY, coarseX, BitVec.getLsbD_extractLsb']
    by_cases h1 : i < 5
    · simp [h1]
    by_cases h2 : i < 10
    · simp [h1, h2, show i - 5 < 5 by omega, show 5 + (i - 5) = i by omega]
    by_cases h3 : i < 11
    · simp [h1, h2, h3, show i - 10 < 1 by omega, show 10 + (i - 10) = i by omega]
    by_cases h4 : i < 12
    · simp [h1, h2, h3, h4, show i - 11 < 1 by omega, show 11 + (i - 11) = i by omega]
    · simp [h1, h2, h3, h4, show i - 12 < 3 by omega, show 12 + (i - 12) = i by omega]

/-- Two addresses with equal fields are equal. -/
theorem compositeAddr_ext {a b : CompositeAddr} (h1 : coarseX a = coarseX b) (h2 : coarseY a = coarseY b)
    (h3 : ntX a = ntX b) (h4 : ntY a = ntY b) (h5 : fineY a = fineY b) : a = b := by
  rw [← compositeAddr_eta a, ← compositeAddr_eta b, h1, h2, h3, h4, h5]

section Writes

variable (a : CompositeAddr)

@[simp] theorem coarseX_setCoarseX (x : BitVec 5) : coarseX (setCoarseX a x) = x := by simp [setCoarseX]
@[simp] theorem coarseY_setCoarseX (x : BitVec 5) : coarseY (setCoarseX a x) = coarseY a := by simp [setCoarseX]
@[simp] theorem ntX_setCoarseX (x : BitVec 5) : ntX (setCoarseX a x) = ntX a := by simp [setCoarseX]
@[simp] theorem ntY_setCoarseX (x : BitVec 5) : ntY (setCoarseX a x) = ntY a := by simp [setCoarseX]
@[simp] theorem fineY_setCoarseX (x : BitVec 5) : fineY (setCoarseX a x) = fineY a := by simp [setCoarseX]

@[simp] theorem coarseX_setCoarseY (y : BitVec 5) : coarseX (setCoarseY a y) = coarseX a := by simp [setCoarseY]
@[simp] theorem coarseY_setCoarseY (y : BitVec 5) : coarseY (setCoarseY a y) = y := by simp [setCoarseY]
@[simp] theorem ntX_setCoarseY (y : BitVec 5) : ntX (setCoarseY a y) = ntX a := by simp [setCoarseY]
@[simp] theorem ntY_setCoarseY (y : BitVec 5) : ntY (setCoarseY a y) = ntY a := by simp [setCoarseY]
@[simp] theorem fineY_setCoarseY (y : BitVec 5) : fineY (setCoarseY a y) = fineY a := by simp [setCoarseY]

@[simp] theorem coarseX_setNtX (b : BitVec 1) : coarseX (setNtX a b) = coarseX a := by simp [setNtX]
@[simp] theorem coarseY_setNtX (b : BitVec 1) : coarseY (setNtX a b) = coarseY a := by simp [setNtX]
@[simp] theorem ntX_setNtX (b : BitVec 1) : ntX (setNtX a b) = b := by simp [setNtX]
@[simp] theorem ntY_setNtX (b : BitVec 1) : ntY (setNtX a b) = ntY a := by simp [setNtX]
@[simp] theorem fineY_setNtX (b : BitVec 1) : fineY (setNtX a b) = fineY a := by simp [setNtX]

@[simp] theorem coarseX_setNtY (b : BitVec 1) : coarseX (setNtY a b) = coarseX a := by simp [setNtY]
@[simp] theorem coarseY_setNtY (b : BitVec 1) : coarseY (setNtY a b) = coarseY a := by simp [setNtY]
@[simp] theorem ntX_setNtY (b : BitVec 1) : ntX (setNtY a b) = ntX a := by simp [setNtY]
@[simp] theorem ntY_setNtY (b : BitVec 1) : ntY (setNtY a b) = b := by simp [setNtY]
@[simp] theorem fineY_setNtY (b : BitVec 1) : fineY (setNtY a b) = fineY a := by simp [setNtY]

@[simp] theorem coarseX_setFineY (y : BitVec 3) : coarseX (setFineY a y) = coarseX a := by simp [setFineY]
@[simp] theorem coarseY_setFineY (y : BitVec 3) : coarseY (setFineY a y) = coarseY a := by simp [setFineY]
@[simp] theorem ntX_setFineY (y : BitVec 3) : ntX (setFineY a y) = ntX a := by simp [setFineY]
@[simp] theorem ntY_setFineY (y : BitVec 3) : ntY (setFineY a y) = ntY a := by simp [setFineY]
@[simp] theorem fineY_setFineY (y : BitVec 3) : fineY (setFineY a y) = y := by simp [setFineY]

end Writes

end Sys2Proof.Machine
end

