-- ==== Sys2Proof/Laws/Tick.lean ====
section
/-! SUPPORT. What each sub-step of a TICK can do, said once: a theorem `<step>_kept` names every field that the
step leaves as it was, so that no later proof unfolds the step to see it. -/

namespace Sys2Proof.Machine

/-- The mapper after some calls: it is still the same mapper, whatever answers it has used. -/
structure Mapper.Same (m m' : Mapper) : Prop where
  attached : m'.attached = m.attached
  mirroring : m'.mirroring = m.mirroring
  writeAnswers : m'.writeAnswers = m.writeAnswers

theorem Mapper.Same.refl (m : Mapper) : m.Same m := ⟨rfl, rfl, rfl⟩

theorem Mapper.Same.trans {m m' m'' : Mapper} (h : m.Same m') (h' : m'.Same m'') : m.Same m'' :=
  ⟨h'.attached.trans h.attached, h'.mirroring.trans h.mirroring, h'.writeAnswers.trans h.writeAnswers⟩

theorem Mapper.same_afterRead (m : Mapper) : m.Same m.afterRead := ⟨rfl, rfl, rfl⟩

/-- What every sub-step of a TICK keeps: the memories, the registers only the ports write, the driver's side,
and which mapper it is; the trace only grows. -/
structure TickKept (s t : State) : Prop where
  mem : t.mem = s.mem
  ctrl : t.bank.ctrl = s.bank.ctrl
  mask : t.bank.mask = s.bank.mask
  staged : t.bank.t = s.bank.t
  fineX : t.bank.fineX = s.bank.fineX
  w : t.bank.w = s.bank.w
  readBuffer : t.bank.readBuffer = s.bank.readBuffer
  lastDataOut : t.bank.lastDataOut = s.bank.lastDataOut
  oamAddr : t.bank.oamAddr = s.bank.oamAddr
  statusLowSource : t.statusLowSource = s.statusLowSource
  draws : t.draws = s.draws
  driver : t.driver = s.driver
  returned : t.returned = s.returned
  mapper : s.mapper.Same t.mapper
  trace : s.trace <:+ t.trace

theorem TickKept.refl (s : State) : TickKept s s := by
  constructor <;> first | rfl | exact .refl _

theorem TickKept.trans {s t u : State} (h : TickKept s t) (h' : TickKept t u) : TickKept s u where
  mem := h'.mem.trans h.mem
  ctrl := h'.ctrl.trans h.ctrl
  mask := h'.mask.trans h.mask
  staged := h'.staged.trans h.staged
  fineX := h'.fineX.trans h.fineX
  w := h'.w.trans h.w
  readBuffer := h'.readBuffer.trans h.readBuffer
  lastDataOut := h'.lastDataOut.trans h.lastDataOut
  oamAddr := h'.oamAddr.trans h.oamAddr
  statusLowSource := h'.statusLowSource.trans h.statusLowSource
  draws := h'.draws.trans h.draws
  driver := h'.driver.trans h.driver
  returned := h'.returned.trans h.returned
  mapper := h.mapper.trans h'.mapper
  trace := h.trace.trans h'.trace

/-- A state that differs only in fields a TICK may move, with the mapper and the trace as they were. -/
theorem TickKept.of_update {s t : State} (h1 : t.mem = s.mem)
    (h2 : t.bank = { s.bank with v := t.bank.v, status := t.bank.status })
    (h3 : t.statusLowSource = s.statusLowSource) (h4 : t.draws = s.draws) (h5 : t.driver = s.driver)
    (h6 : t.returned = s.returned) (h7 : s.mapper.Same t.mapper) (h8 : s.trace <:+ t.trace) : TickKept s t where
  mem := h1
  ctrl := by rw [h2]
  mask := by rw [h2]
  staged := by rw [h2]
  fineX := by rw [h2]
  w := by rw [h2]
  readBuffer := by rw [h2]
  lastDataOut := by rw [h2]
  oamAddr := by rw [h2]
  statusLowSource := h3
  draws := h4
  driver := h5
  returned := h6
  mapper := h7
  trace := h8

/-! ### Background -/

/-- A background sub-step moves only `v`, the pipeline and the mapper's side. -/
structure BgKept (s t : State) : Prop extends TickKept s t where
  status : t.bank.status = s.bank.status
  sp : t.sp = s.sp
  timing : t.timing = s.timing
  back : t.back = s.back
  front : t.front = s.front

theorem BgKept.refl (s : State) : BgKept s s := ⟨.refl s, rfl, rfl, rfl, rfl, rfl⟩

theorem BgKept.trans {s t u : State} (h : BgKept s t) (h' : BgKept t u) : BgKept s u :=
  ⟨h.toTickKept.trans h'.toTickKept, h'.status.trans h.status, h'.sp.trans h.sp, h'.timing.trans h.timing,
    h'.back.trans h.back, h'.front.trans h.front⟩

theorem BgKept.ite {c : Prop} [Decidable c] {s t u : State} (h : BgKept s t) (h' : BgKept s u) :
    BgKept s (if c then t else u) := by
  split
  · exact h
  · exact h'

/-- A state that differs only in `v` and the background pipeline. -/
theorem BgKept.of_v_bg (s : State) (v : CompositeAddr) (bg : Background) :
    BgKept s { s with bank.v := v, bg := bg } :=
  ⟨.of_update rfl rfl rfl rfl rfl rfl (.refl _) (List.suffix_refl _), rfl, rfl, rfl, rfl, rfl⟩

/-- A fetch into the background pipeline. -/
theorem BgKept.of_fetch (s : State) (n : Bool) (a : PpuAddr) (bg : Background) :
    BgKept s { s.afterRead n a with bg := bg } :=
  ⟨.of_update rfl rfl rfl rfl rfl rfl (Mapper.same_afterRead _) (List.suffix_append _ _), rfl, rfl, rfl, rfl, rfl⟩

theorem shiftBg_kept (s : State) : BgKept s s.shiftBg := .ite (.of_v_bg s s.bank.v _) (.refl s)
theorem loadBg_kept (s : State) : BgKept s s.loadBg := .of_v_bg s s.bank.v _
theorem fetchTileId_kept (s : State) : BgKept s s.fetchTileId := .of_fetch s _ _ _
theorem fetchAttr_kept (s : State) : BgKept s s.fetchAttr := .of_fetch s _ _ _
theorem fetchLo_kept (s : State) : BgKept s s.fetchLo := .of_fetch s _ _ _
theorem fetchHi_kept (s : State) : BgKept s s.fetchHi := .of_fetch s _ _ _
theorem dummyFetch_kept (s : State) : BgKept s s.dummyFetch := .of_fetch s _ _ s.bg
theorem incX_kept (s : State) : BgKept s s.incX := .ite (.of_v_bg s _ s.bg) (.refl s)
theorem incY_kept (s : State) : BgKept s s.incY := .ite (.of_v_bg s _ s.bg) (.refl s)
theorem transferX_kept (s : State) : BgKept s s.transferX := .ite (.of_v_bg s _ s.bg) (.refl s)
theorem transferY_kept (s : State) : BgKept s s.transferY := .ite (.of_v_bg s _ s.bg) (.refl s)

theorem phaseAction_kept (s : State) : BgKept s s.phaseAction := by
  unfold State.phaseAction
  split
  · exact (loadBg_kept s).trans (fetchTileId_kept _)
  · exact fetchAttr_kept s
  · exact fetchLo_kept s
  · exact fetchHi_kept s
  · exact incX_kept s
  · exact .refl s

theorem singleDotAction_kept (s : State) : BgKept s s.singleDotAction :=
  .ite (incY_kept s) <| .ite ((loadBg_kept s).trans (transferX_kept _)) <|
    .ite (dummyFetch_kept s) <| .ite (transferY_kept s) (.refl s)

theorem shiftAndPhase_kept (s : State) : BgKept s s.shiftAndPhase :=
  .ite ((shiftBg_kept s).trans (phaseAction_kept _)) (.refl s)

theorem backgroundStep_kept (s : State) : BgKept s s.backgroundStep :=
  .ite ((shiftAndPhase_kept s).trans (singleDotAction_kept _)) (.refl s)

/-! ### Sprites -/

/-- A sprite sub-step moves only the sprite pipeline, the overflow flag and the mapper's side. -/
structure SpKept (s t : State) : Prop extends TickKept s t where
  status : t.bank.status = s.bank.status ∨ t.bank.status = setSpOverflow s.bank.status
  v : t.bank.v = s.bank.v
  bg : t.bg = s.bg
  timing : t.timing = s.timing
  back : t.back = s.back
  front : t.front = s.front

theorem SpKept.refl (s : State) : SpKept s s := ⟨.refl s, .inl rfl, rfl, rfl, rfl, rfl, rfl⟩

theorem SpKept.ite {c : Prop} [Decidable c] {s t u : State} (h : SpKept s t) (h' : SpKept s u) :
    SpKept s (if c then t else u) := by
  split
  · exact h
  · exact h'

/-- A state that differs only in the sprite pipeline. -/
theorem SpKept.of_sp (s : State) (sp : Sprites) : SpKept s { s with sp := sp } :=
  ⟨.of_update rfl rfl rfl rfl rfl rfl (.refl _) (List.suffix_refl _), .inl rfl, rfl, rfl, rfl, rfl, rfl⟩

theorem advanceSprites_kept (s : State) : SpKept s s.advanceSprites := .ite (.of_sp s _) (.refl s)

theorem evaluateSprites_kept (s : State) : SpKept s s.evaluateSprites := by
  refine ⟨.of_update rfl rfl rfl rfl rfl rfl (.refl _) (List.suffix_refl _), ?_, rfl, rfl, rfl, rfl, rfl⟩
  simp only [State.evaluateSprites]
  cases s.scan.overflow <;> simp

/-- A fetch moves only the slots and the mapper's side. -/
structure FetchKept (s t : State) : Prop extends TickKept s t where
  bank : t.bank = s.bank
  bg : t.bg = s.bg
  count : t.sp.count = s.sp.count
  zeroPossible : t.sp.zeroPossible = s.sp.zeroPossible
  timing : t.timing = s.timing
  back : t.back = s.back
  front : t.front = s.front

theorem FetchKept.refl (s : State) : FetchKept s s := ⟨.refl s, rfl, rfl, rfl, rfl, rfl, rfl, rfl⟩

theorem FetchKept.trans {s t u : State} (h : FetchKept s t) (h' : FetchKept t u) : FetchKept s u :=
  ⟨h.toTickKept.trans h'.toTickKept, h'.bank.trans h.bank, h'.bg.trans h.bg, h'.count.trans h.count,
    h'.zeroPossible.trans h.zeroPossible, h'.timing.trans h.timing, h'.back.trans h.back, h'.front.trans h.front⟩

theorem afterRead_fetchKept (s : State) (n : Bool) (a : PpuAddr) : FetchKept s (s.afterRead n a) :=
  ⟨.of_update rfl rfl rfl rfl rfl rfl (Mapper.same_afterRead _) (List.suffix_append _ _),
    rfl, rfl, rfl, rfl, rfl, rfl, rfl⟩

theorem setSlots_fetchKept (s : State) (slots : Vector Slot 8) : FetchKept s { s with sp.slot := slots } :=
  ⟨.of_update rfl rfl rfl rfl rfl rfl (.refl _) (List.suffix_refl _), rfl, rfl, rfl, rfl, rfl, rfl, rfl⟩

theorem fetchSlot_kept (s : State) (i : Fin 8) : FetchKept s (s.fetchSlot i) := by
  unfold State.fetchSlot
  split
  · exact ((afterRead_fetchKept s _ _).trans (afterRead_fetchKept _ _ _)).trans (setSlots_fetchKept _ _)
  · exact .refl s

theorem fetchSlots_kept (l : List (Fin 8)) (s : State) : FetchKept s (l.foldl State.fetchSlot s) := by
  induction l generalizing s with
  | nil => exact .refl s
  | cons i rest ih => exact (fetchSlot_kept s i).trans (ih _)

theorem fetchSprites_kept (s : State) : SpKept s s.fetchSprites := by
  have h := fetchSlots_kept slotNumbers s
  exact ⟨h.toTickKept, .inl (congrArg RegisterBank.status h.bank), congrArg RegisterBank.v h.bank, h.bg, h.timing,
    h.back, h.front⟩

theorem spriteStep_kept (s : State) : SpKept s s.spriteStep :=
  .ite (.ite (advanceSprites_kept s) <| .ite (evaluateSprites_kept s) <| .ite (fetchSprites_kept s) (.refl s))
    (.refl s)

/-! ### Compositor -/

/-- The compositor moves only the sprite-zero flag, the back buffer and the mapper's side. -/
structure CompKept (s t : State) : Prop extends TickKept s t where
  status : t.bank.status = s.bank.status ∨ t.bank.status = setSpZeroHit s.bank.status
  v : t.bank.v = s.bank.v
  bg : t.bg = s.bg
  sp : t.sp = s.sp
  timing : t.timing = s.timing
  front : t.front = s.front

theorem CompKept.refl (s : State) : CompKept s s := ⟨.refl s, .inl rfl, rfl, rfl, rfl, rfl, rfl⟩

theorem noteZeroHit_kept (s : State) : CompKept s s.noteZeroHit := by
  unfold State.noteZeroHit
  split
  · exact ⟨.of_update rfl rfl rfl rfl rfl rfl (.refl _) (List.suffix_refl _), .inr rfl, rfl, rfl, rfl, rfl, rfl⟩
  · exact .refl s

/-- The colour lookup and frame write keep even STATUS. -/
theorem drawPixel_kept (s : State) : CompKept s s.drawPixel ∧ s.drawPixel.bank = s.bank := by
  unfold State.drawPixel
  split
  · exact ⟨⟨.of_update rfl rfl rfl rfl rfl rfl (Mapper.same_afterRead _) (List.suffix_append _ _),
      .inl rfl, rfl, rfl, rfl, rfl, rfl⟩, rfl⟩
  · exact ⟨.refl s, rfl⟩

theorem compositorStep_kept (s : State) : CompKept s s.compositorStep := by
  unfold State.compositorStep
  split
  · have h := noteZeroHit_kept s
    obtain ⟨h', hb⟩ := drawPixel_kept s.noteZeroHit
    exact ⟨h.toTickKept.trans h'.toTickKept, by rw [hb]; exact h.status, h'.v.trans h.v, h'.bg.trans h.bg,
      h'.sp.trans h.sp, h'.timing.trans h.timing, h'.front.trans h.front⟩
  · exact .refl s

/-! ### Timing -/

/-- The odd-frame skip moves only the dot (rule R242). -/
theorem oddFrameSkip_eq (s : State) :
    s.oddFrameSkip = { s with timing.dot :=
      if s.timing.scanline = 0 ∧ s.timing.dot = 0 ∧ s.timing.oddFrame = true ∧ s.renderingEnabled = true
      then 1 else s.timing.dot } := by
  unfold State.oddFrameSkip
  split <;> rfl

theorem oddFrameSkip_kept (s : State) : TickKept s s.oddFrameSkip := by
  rw [oddFrameSkip_eq]
  exact .of_update rfl rfl rfl rfl rfl rfl (.refl _) (List.suffix_refl _)

/-- A fixed-dot event moves only STATUS, the sprite shifters, the request and the trace (rules R243 to R245). -/
structure EventKept (s t : State) : Prop extends TickKept s t where
  v : t.bank.v = s.bank.v
  bg : t.bg = s.bg
  count : t.sp.count = s.sp.count
  zeroPossible : t.sp.zeroPossible = s.sp.zeroPossible
  raster : t.timing = { s.timing with nmiPending := t.timing.nmiPending }
  back : t.back = s.back
  front : t.front = s.front
  mapperKept : t.mapper = s.mapper

theorem timingEvents_kept (s : State) : EventKept s s.timingEvents := by
  unfold State.timingEvents
  split
  · exact ⟨.of_update rfl rfl rfl rfl rfl rfl (.refl _) (List.suffix_refl _), rfl, rfl, rfl, rfl, rfl, rfl, rfl, rfl⟩
  · split
    · exact ⟨.of_update rfl rfl rfl rfl rfl rfl (.refl _) (List.suffix_refl _), rfl, rfl, rfl, rfl, rfl, rfl, rfl, rfl⟩
    · split
      · exact ⟨.of_update rfl rfl rfl rfl rfl rfl (.refl _) (List.suffix_cons _ _),
          rfl, rfl, rfl, rfl, rfl, rfl, rfl, rfl⟩
      · exact ⟨.refl s, rfl, rfl, rfl, rfl, rfl, rfl, rfl, rfl⟩

/-- The advance moves only the raster, the frame signals and, at a wrap, `front` (rules R246 to R248). -/
theorem advance_eq (s : State) :
    s.advance =
      if s.timing.dot < 340 then { s with timing.dot := s.timing.dot + 1 }
      else if s.timing.scanline < 260 then { s with timing.dot := 0, timing.scanline := s.timing.scanline + 1 }
      else { s with timing.dot := 0, timing.scanline := -1, timing.frameComplete := true,
                    timing.oddFrame := !s.timing.oddFrame, front := s.back } := by
  unfold State.advance State.nextScanline
  by_cases h1 : s.timing.dot < 340
  · simp [h1, show ¬ s.timing.dot + 1 > 340 by omega]
  · by_cases h2 : s.timing.scanline < 260
    · simp [h1, h2, show s.timing.dot + 1 > 340 by omega, show ¬ s.timing.scanline + 1 > 260 by omega]
    · simp [h1, h2, show s.timing.dot + 1 > 340 by omega, show s.timing.scanline + 1 > 260 by omega, State.frameWrap]

/-- What the advance keeps: everything but the raster, the frame signals and `front`. -/
structure AdvanceKept (s t : State) : Prop extends TickKept s t where
  bank : t.bank = s.bank
  bg : t.bg = s.bg
  sp : t.sp = s.sp
  nmiPending : t.timing.nmiPending = s.timing.nmiPending
  back : t.back = s.back
  mapperKept : t.mapper = s.mapper
  traceKept : t.trace = s.trace

theorem advance_kept (s : State) : AdvanceKept s s.advance := by
  rw [advance_eq]
  split
  · exact ⟨.of_update rfl rfl rfl rfl rfl rfl (.refl _) (List.suffix_refl _), rfl, rfl, rfl, rfl, rfl, rfl, rfl⟩
  · split
    · exact ⟨.of_update rfl rfl rfl rfl rfl rfl (.refl _) (List.suffix_refl _), rfl, rfl, rfl, rfl, rfl, rfl, rfl⟩
    · exact ⟨.of_update rfl rfl rfl rfl rfl rfl (.refl _) (List.suffix_refl _), rfl, rfl, rfl, rfl, rfl, rfl, rfl⟩

/-! ### The whole TICK -/

/-- What a whole TICK keeps: of the register bank only `v` and STATUS can move, and no memory does. -/
theorem tick_kept (s : State) : TickKept s s.tick :=
  (oddFrameSkip_kept s).trans <| (backgroundStep_kept _).toTickKept.trans <| (spriteStep_kept _).toTickKept.trans <|
    (compositorStep_kept _).toTickKept.trans <| (timingEvents_kept _).toTickKept.trans (advance_kept _).toTickKept

end Sys2Proof.Machine
end

