-- ==== Sys2Proof/Laws/Background.lean ====
section
/-! SUPPORT. What the background step of a TICK does, said once as an equation: the one read it makes, the pipeline
after it and `v` after it (rules R160 to R177). -/

namespace Sys2Proof.Machine

/-- The address of the one read that the background step makes at this dot, if it makes one (rule R177). -/
def State.bgFetch (s : State) : Option BusAddr :=
  if qualifyingDot s.timing.dot then
    match (s.timing.dot - 1) % 8 with
    | 0 => some (tileIdAddr s.bank.v)
    | 2 => some (attrAddr s.bank.v)
    | 4 => some s.bgPlaneAddr
    | 6 => some (s.bgPlaneAddr + 8#16)
    | _ => none
  else if s.timing.dot = 338 ∨ s.timing.dot = 340 then some (tileIdAddr s.bank.v)
  else none

/-- The machine after the read of `bgFetch`, as the mapper and the driver's side see it. -/
def State.afterFetch (s : State) (a : Option BusAddr) : State :=
  match a with
  | some a => s.afterRead true (ppuAddr a)
  | none => s

/-! Each sub-step as one update of the state. -/

theorem shiftBg_eq (s : State) : s.shiftBg = { s with bg := if s.showBg then s.bg.shift else s.bg } := by
  unfold State.shiftBg
  split <;> rfl

theorem incX_eq (s : State) :
    s.incX = { s with bank.v := if s.renderingEnabled then incCoarseX s.bank.v else s.bank.v } := by
  unfold State.incX
  split <;> rfl

theorem incY_eq (s : State) :
    s.incY = { s with bank.v := if s.renderingEnabled then incFineY s.bank.v else s.bank.v } := by
  unfold State.incY
  split <;> rfl

theorem transferX_eq (s : State) :
    s.transferX = { s with bank.v := if s.renderingEnabled then copyHorizontal s.bank.v s.bank.t else s.bank.v } := by
  unfold State.transferX
  split <;> rfl

theorem transferY_eq (s : State) :
    s.transferY = { s with bank.v := if s.renderingEnabled then copyVertical s.bank.v s.bank.t else s.bank.v } := by
  unfold State.transferY
  split <;> rfl


/-- The pipeline after the background step of a rendering scanline. -/
def State.bgAfter (s : State) : Background :=
  let b := if s.showBg then s.bg.shift else s.bg
  if qualifyingDot s.timing.dot then
    match (s.timing.dot - 1) % 8 with
    | 0 => { b.load with nextId := s.readValue (ppuAddr (tileIdAddr s.bank.v)) }
    | 2 => { b with nextAttr := attrQuadrant s.bank.v (s.readValue (ppuAddr (attrAddr s.bank.v))) }
    | 4 => { b with nextLo := s.readValue (ppuAddr s.bgPlaneAddr) }
    | 6 => { b with nextHi := s.readValue (ppuAddr (s.bgPlaneAddr + 8#16)) }
    | _ => b
  else s.bg

/-- `v` after the background step of a rendering scanline. -/
def State.vAfter (s : State) : CompositeAddr :=
  if s.renderingEnabled then
    if s.timing.dot = 256 then incFineY (incCoarseX s.bank.v)
    else if s.timing.dot = 257 then copyHorizontal s.bank.v s.bank.t
    else if qualifyingDot s.timing.dot ∧ s.timing.dot % 8 = 0 then incCoarseX s.bank.v
    else if s.timing.scanline = -1 ∧ 280 ≤ s.timing.dot ∧ s.timing.dot ≤ 304 then copyVertical s.bank.v s.bank.t
    else s.bank.v
  else s.bank.v

/-- A read sees only the mapper, the memories and the gray bit's register. -/
theorem readValue_congr {s t : State} (h0 : t.mapper = s.mapper) (h1 : t.mem = s.mem)
    (h2 : t.bank.mask = s.bank.mask) (a : PpuAddr) : t.readValue a = s.readValue a := by
  simp [State.readValue, h0, State.internalRead_congr h1 h2 (congrArg _ h0)]

/-- The shift and the phase action of a qualifying dot (rules R162 to R170). -/
theorem shiftAndPhase_eq (s : State) (hq : qualifyingDot s.timing.dot = true) :
    s.shiftAndPhase = { s.afterFetch s.bgFetch with
      bg := s.bgAfter
      bank.v := if (s.timing.dot - 1) % 8 = 7 ∧ s.renderingEnabled = true then incCoarseX s.bank.v else s.bank.v } := by
  have h8 := Nat.mod_lt (s.timing.dot - 1) (show 0 < 8 by decide)
  unfold State.shiftAndPhase State.bgFetch State.bgAfter State.phaseAction
  rw [if_pos hq, if_pos hq, if_pos hq, shiftBg_eq]
  generalize hp : (s.timing.dot - 1) % 8 = p at *
  have : p = 0 ∨ p = 1 ∨ p = 2 ∨ p = 3 ∨ p = 4 ∨ p = 5 ∨ p = 6 ∨ p = 7 := by omega
  rcases this with rfl|rfl|rfl|rfl|rfl|rfl|rfl|rfl <;> simp only
  · rfl
  · rfl
  · rfl
  · rfl
  · cases hb : s.showBg <;> rfl
  · rfl
  · cases hb : s.showBg <;> rfl
  · rw [incX_eq]
    by_cases hr : s.renderingEnabled = true
    · simp [State.renderingEnabled, State.afterFetch]
      simp [State.renderingEnabled] at hr
      simp [hr]
    · simp at hr
      have : ({ s with bg := if s.showBg = true then s.bg.shift else s.bg } : State).renderingEnabled = s.renderingEnabled := rfl
      simp [hr, this, State.afterFetch]

/-- The second reload of dot 257 changes nothing (rule R173). -/
theorem load_load (b : Background) (x : Byte) :
    ({ b.load with nextId := x }).load = { b.load with nextId := x } := by
  simp only [Background.load, Background.mk.injEq, true_and]
  refine ⟨?_, ?_, ?_, ?_⟩
  all_goals
    refine BitVec.eq_of_getLsbD_eq fun i hi => ?_
    simp only [BitVec.getLsbD_or, BitVec.getLsbD_and, BitVec.getLsbD_setWidth]
    by_cases h : i < 8 
    · have : i = 0 ∨ i = 1 ∨ i = 2 ∨ i = 3 ∨ i = 4 ∨ i = 5 ∨ i = 6 ∨ i = 7 := by omega
      rcases this with rfl|rfl|rfl|rfl|rfl|rfl|rfl|rfl <;> simp
    · have : i = 8 ∨ i = 9 ∨ i = 10 ∨ i = 11 ∨ i = 12 ∨ i = 13 ∨ i = 14 ∨ i = 15 := by omega
      rcases this with rfl|rfl|rfl|rfl|rfl|rfl|rfl|rfl <;> simp

/-- The single-dot actions, each as one update (rules R171 to R175). -/
theorem singleDotAction_eq (s : State) :
    s.singleDotAction =
      if s.timing.dot = 256 then { s with bank.v := if s.renderingEnabled then incFineY s.bank.v else s.bank.v }
      else if s.timing.dot = 257 then
        { s with bg := s.bg.load, bank.v := if s.renderingEnabled then copyHorizontal s.bank.v s.bank.t else s.bank.v }
      else if s.timing.dot = 338 ∨ s.timing.dot = 340 then s.afterRead true (ppuAddr (tileIdAddr s.bank.v))
      else if s.timing.scanline = -1 ∧ 280 ≤ s.timing.dot ∧ s.timing.dot ≤ 304 then
        { s with bank.v := if s.renderingEnabled then copyVertical s.bank.v s.bank.t else s.bank.v }
      else s := by
  simp only [State.singleDotAction, incY_eq, transferX_eq, transferY_eq]
  rfl

/-- The background step, whole: one read at most, the pipeline and `v`. -/
theorem backgroundStep_eq (s : State) :
    s.backgroundStep =
      if s.onRenderingLine then { s.afterFetch s.bgFetch with bg := s.bgAfter, bank.v := s.vAfter } else s := by
  unfold State.backgroundStep
  by_cases hl : s.onRenderingLine = true
  · simp only [hl, if_true]
    by_cases hq : qualifyingDot s.timing.dot = true
    · have hr : (2 ≤ s.timing.dot ∧ s.timing.dot ≤ 257) ∨ (321 ≤ s.timing.dot ∧ s.timing.dot ≤ 337) := by
        simpa [qualifyingDot] using hq
      have ht : ∀ a, (s.afterFetch a).timing = s.timing := by intro a; cases a <;> rfl
      have hm : ∀ a, (s.afterFetch a).bank = s.bank := by intro a; cases a <;> rfl
      rw [shiftAndPhase_eq s hq, singleDotAction_eq]
      simp only [ht, hm, State.renderingEnabled]
      have e7 : (s.timing.dot - 1) % 8 = 7 ↔ s.timing.dot % 8 = 0 := by omega
      by_cases h256 : s.timing.dot = 256
      · simp only [State.vAfter, h256, State.renderingEnabled]
        cases maskRenderingEnabled s.bank.mask <;> simp
      · by_cases h257 : s.timing.dot = 257
        · have hb : s.bgAfter.load = s.bgAfter := by
            simp only [State.bgAfter, h257]; exact load_load _ _
          rw [if_neg h256, if_pos h257, hb]
          simp only [State.vAfter, h257, State.renderingEnabled]
          cases maskRenderingEnabled s.bank.mask <;> simp
        · simp only [State.vAfter, h256, h257, e7, hq, State.renderingEnabled, if_false,
            show ¬(s.timing.dot = 338 ∨ s.timing.dot = 340) by omega,
            show ¬(s.timing.scanline = -1 ∧ 280 ≤ s.timing.dot ∧ s.timing.dot ≤ 304) by omega]
          cases maskRenderingEnabled s.bank.mask <;> simp
    · have hr : ¬((2 ≤ s.timing.dot ∧ s.timing.dot ≤ 257) ∨ (321 ≤ s.timing.dot ∧ s.timing.dot ≤ 337)) := by
        simpa [qualifyingDot] using hq
      have hs : s.shiftAndPhase = s := by simp [State.shiftAndPhase, hq]
      rw [hs, singleDotAction_eq]
      simp only [State.bgFetch, State.bgAfter, State.vAfter, hq, if_false,
        show s.timing.dot ≠ 256 by omega, show s.timing.dot ≠ 257 by omega]
      by_cases h3 : s.timing.dot = 338 ∨ s.timing.dot = 340
      · simp only [h3, if_true, State.afterFetch,
          show ¬(s.timing.scanline = -1 ∧ 280 ≤ s.timing.dot ∧ s.timing.dot ≤ 304) by omega]
        cases s.renderingEnabled <;> simp
        all_goals rfl
      · simp only [h3, if_false, State.afterFetch]
        by_cases h4 : s.timing.scanline = -1 ∧ 280 ≤ s.timing.dot ∧ s.timing.dot ≤ 304 <;>
          cases s.renderingEnabled <;> simp [h4]
  · simp [hl]

end Sys2Proof.Machine
end

