-- ==== Sys2Proof/Laws/Sprites.lean ====
section
/-! SUPPORT. What the sprite step of a TICK does, said once: the result of a scan as a whole (rules R191 to R196)
and the fetch of one slot as one update (rules R197 to R203). -/

namespace Sys2Proof.Machine

/-- Whether OAM entry n qualifies for the next scanline (rule R192). -/
def State.entryQualifies (s : State) (n : Nat) : Bool :=
  qualifies (s.timing.scanline + 1) (spriteHeight s.bank.ctrl) (s.oamByte (4 * n))

/-- A slot with entry n copied into it (rule R193). -/
def State.copyOf (s : State) (sl : Slot) (n : Nat) : Slot :=
  sl.copyEntry (s.oamByte (4 * n)) (s.oamByte (4 * n + 1)) (s.oamByte (4 * n + 2)) (s.oamByte (4 * n + 3))

/-- What a scan of the entries `l` does to a list that holds `acc.sp.count` of them already. -/
structure ScanResult (s : State) (acc res : Scan) (q : List Nat) : Prop where
  count : res.sp.count = min 8 (acc.sp.count + q.length)
  overflow : res.overflow = (acc.overflow || decide (8 < acc.sp.count + q.length))
  zeroPossible : res.sp.zeroPossible = (acc.sp.zeroPossible || decide (0 ∈ q.take (8 - acc.sp.count)))
  old : ∀ i : Fin 8, i.val < acc.sp.count → res.sp.slot[i] = acc.sp.slot[i]
  new : ∀ (i : Fin 8) (n : Nat), acc.sp.count ≤ i.val → q[i.val - acc.sp.count]? = some n →
    res.sp.slot[i] = s.copyOf acc.sp.slot[i] n
  rest : ∀ i : Fin 8, acc.sp.count + q.length ≤ i.val → res.sp.slot[i] = acc.sp.slot[i]

/-- A scan, from any list it starts with. -/
theorem scan_result (s : State) (l : List Nat) (acc : Scan) (h : acc.sp.count ≤ 8) :
    ScanResult s acc (l.foldl s.scanEntry acc) (l.filter s.entryQualifies) := by
  induction l generalizing acc with
  | nil =>
    refine ⟨?_, ?_, ?_, fun i _ => rfl, fun i n _ h => ?_, fun i _ => rfl⟩
    · simp; omega
    · simp [show ¬ 8 < acc.sp.count by omega]
    · simp
    · simp at h
  | cons n l ih =>
    simp only [List.foldl_cons]
    by_cases hq : s.entryQualifies n = true
    · have hq' : qualifies (s.timing.scanline + 1) (spriteHeight s.bank.ctrl) (s.oamByte (4 * n)) = true := hq
      rw [List.filter_cons_of_pos hq]
      by_cases hc : acc.sp.count < 8
      · have e : s.scanEntry acc n = { acc with sp :=
            { slot := acc.sp.slot.set acc.sp.count (s.copyOf acc.sp.slot[acc.sp.count] n) hc
              count := acc.sp.count + 1, zeroPossible := acc.sp.zeroPossible || n == 0 } } := by
          unfold State.scanEntry
          rw [if_pos hq', dif_pos hc]
          rfl
        rw [e]
        have r := ih { acc with sp :=
            { slot := acc.sp.slot.set acc.sp.count (s.copyOf acc.sp.slot[acc.sp.count] n) hc
              count := acc.sp.count + 1, zeroPossible := acc.sp.zeroPossible || n == 0 } } (by simp; omega)
        refine ⟨?_, ?_, ?_, fun i hi => ?_, fun i m hi hm => ?_, fun i hi => ?_⟩
        · rw [r.count]; simp; omega
        · rw [r.overflow]; simp; congr 2; simp; omega
        · rw [r.zeroPossible]
          obtain ⟨k, hk⟩ : ∃ k, 8 - acc.sp.count = k + 1 := ⟨7 - acc.sp.count, by omega⟩
          simp only [hk, List.take_succ_cons, show 8 - (acc.sp.count + 1) = k by omega]
          by_cases h0 : n = 0
          · subst h0; simp
          · simp [beq_false_of_ne h0, Ne.symm h0]
        · rw [r.old i (by simp; omega)]
          simp [Fin.getElem_fin, Vector.getElem_set_ne, show acc.sp.count ≠ i.val by omega]
        · by_cases hie : i.val = acc.sp.count
          · rw [r.old i (by simp; omega)]
            have : m = n := by simp [hie] at hm; exact hm.symm
            subst this
            simp [Fin.getElem_fin, hie]
          · obtain ⟨k, hk⟩ : ∃ k, i.val - acc.sp.count = k + 1 := ⟨i.val - acc.sp.count - 1, by omega⟩
            rw [hk, List.getElem?_cons_succ] at hm
            rw [r.new i m (by simp; omega) (by simpa [show i.val - (acc.sp.count + 1) = k by omega] using hm)]
            simp [Fin.getElem_fin, Vector.getElem_set_ne, show acc.sp.count ≠ i.val by omega]
        · simp at hi
          rw [r.rest i (by simp; omega)]
          simp [Fin.getElem_fin, Vector.getElem_set_ne, show acc.sp.count ≠ i.val by omega]
      · have e : s.scanEntry acc n = { acc with overflow := true } := by
          unfold State.scanEntry; rw [if_pos hq', dif_neg hc]
        rw [e]
        have r := ih { acc with overflow := true } h
        have h8 : acc.sp.count = 8 := by omega
        refine ⟨?_, ?_, ?_, r.old, fun i m hi _ => by omega, fun i hi => by omega⟩
        · rw [r.count]; simp; omega
        · rw [r.overflow]; simp; omega
        · rw [r.zeroPossible]; simp [h8]
    · have hq' : ¬ qualifies (s.timing.scanline + 1) (spriteHeight s.bank.ctrl) (s.oamByte (4 * n)) = true := hq
      have e : s.scanEntry acc n = acc := by unfold State.scanEntry; rw [if_neg hq']
      rw [List.filter_cons_of_neg hq, e]
      exact ih acc h

/-- A slot beyond the count is not fetched (rule R197). -/
theorem fetchSlot_invalid (s : State) (i : Fin 8) (h : s.sp.count ≤ i.val) : s.fetchSlot i = s := by
  unfold State.fetchSlot
  rw [if_neg (by omega)]

/-- A valid slot: two reads, low plane first, then the load (rules R201 to R203). -/
theorem fetchSlot_valid (s : State) (i : Fin 8) (h : i.val < s.sp.count) :
    s.fetchSlot i =
      let lo := s.readValue (ppuAddr (s.spriteAddr s.sp.slot[i]))
      let s₁ := s.afterRead true (ppuAddr (s.spriteAddr s.sp.slot[i]))
      let hi := s₁.readValue (ppuAddr (s.spriteAddr s.sp.slot[i] + 8#16))
      { s₁.afterRead true (ppuAddr (s.spriteAddr s.sp.slot[i] + 8#16)) with
        sp.slot := s.sp.slot.set i
          { s.sp.slot[i] with lo := flipRow s.sp.slot[i].attr lo, hi := flipRow s.sp.slot[i].attr hi } } := by
  unfold State.fetchSlot
  rw [if_pos h]
  rfl

end Sys2Proof.Machine
end

