-- ==== Sys2Proof/Laws/Compositor.lean ====
section
/-! SUPPORT. The compositor step as an equation, the TICK as its three parts (rule R241), and what each part does to
the raster, the mapper's side and the fields the invariant speaks of. -/

namespace Sys2Proof.Machine

/-! ### Compositor -/

/-- The compositor step, whole: one palette read and one pixel at most, and the sprite-zero flag. -/
theorem compositorStep_eq (s : State) :
    s.compositorStep =
      if s.inCompositorWindow then
        { s.afterFetch (if s.timing.dot ≤ 256 then some (colourAddr s.outPixel) else none) with
          bank.status := if s.spriteZeroHit then setSpZeroHit s.bank.status else s.bank.status
          back := if s.timing.dot ≤ 256 then
              s.back.write (s.timing.dot - 1) s.timing.scanline.toNat
                ((s.readValue (ppuAddr (colourAddr s.outPixel))).setWidth 6)
            else s.back }
      else s := by
  unfold State.compositorStep
  split
  · unfold State.noteZeroHit State.drawPixel
    cases s.spriteZeroHit <;> by_cases hd : s.timing.dot ≤ 256 <;> simp only [hd, if_true, if_false, Bool.false_eq_true] <;>
      rfl
  · rfl

/-! ### The parts of a TICK -/

/-- The work of a TICK before its fixed-dot events: steps B, S and C (rule R241). -/
def State.dotWork (s : State) : State := s.backgroundStep.spriteStep.compositorStep

/-- A TICK is the skip, the work of the dot, the events and the advance. -/
theorem tick_eq (s : State) : s.tick = s.oddFrameSkip.dotWork.timingEvents.advance := rfl

theorem dotWork_kept (s : State) : TickKept s s.dotWork :=
  (backgroundStep_kept s).toTickKept.trans
    ((spriteStep_kept _).toTickKept.trans (compositorStep_kept _).toTickKept)

theorem dotWork_timing (s : State) : s.dotWork.timing = s.timing :=
  ((compositorStep_kept _).timing.trans (spriteStep_kept _).timing).trans (backgroundStep_kept s).timing

theorem dotWork_front (s : State) : s.dotWork.front = s.front :=
  ((compositorStep_kept _).front.trans (spriteStep_kept _).front).trans (backgroundStep_kept s).front

/-- On scanlines 240 … 260 a TICK has no work at its dot (rule R249). -/
theorem dotWork_vblank {s : State} (h : 240 ≤ s.timing.scanline) : s.dotWork = s := by
  have h1 : s.onRenderingLine = false := by simp [State.onRenderingLine]; omega
  have h2 : s.inCompositorWindow = false := by simp [State.inCompositorWindow]; omega
  simp [State.dotWork, State.backgroundStep, h1, State.spriteStep, State.compositorStep, h2]

/-- STATUS after the work of a dot: each sprite flag may have risen. -/
theorem dotWork_status (s : State) :
    ∃ o z : Bool, s.dotWork.bank.status =
      (let st := if o then setSpOverflow s.bank.status else s.bank.status; if z then setSpZeroHit st else st) := by
  have e1 := (backgroundStep_kept s).status
  rcases (spriteStep_kept s.backgroundStep).status with h | h <;>
    rcases (compositorStep_kept s.backgroundStep.spriteStep).status with h' | h' <;>
    rw [State.dotWork, h', h, e1]
  · exact ⟨false, false, rfl⟩
  · exact ⟨false, true, rfl⟩
  · exact ⟨true, false, rfl⟩
  · exact ⟨true, true, rfl⟩

/-- STATUS after the fixed-dot events. -/
theorem timingEvents_status (s : State) :
    s.timingEvents.bank.status =
      if s.timing.scanline = -1 ∧ s.timing.dot = 1 then clearStatusFlags s.bank.status
      else if s.timing.scanline = 241 ∧ s.timing.dot = 1 then setVblank s.bank.status
      else s.bank.status := by
  unfold State.timingEvents
  repeat' split
  all_goals rfl

/-- The request after the fixed-dot events (rule R244). -/
theorem timingEvents_nmiPending (s : State) :
    s.timingEvents.timing.nmiPending =
      if s.timing.scanline = 241 ∧ s.timing.dot = 1 then s.timing.nmiPending || ctrlNmiEnable s.bank.ctrl
      else s.timing.nmiPending := by
  unfold State.timingEvents
  by_cases h1 : s.timing.scanline = -1 ∧ s.timing.dot = 1
  · rw [if_pos h1, if_neg (by omega)]
    rfl
  · rw [if_neg h1]
    repeat' split
    all_goals rfl

/-- The mapper calls of the fixed-dot events (rule R245). -/
theorem timingEvents_trace (s : State) :
    s.timingEvents.trace =
      (if s.timing.dot = 260 ∧ s.onRenderingLine = true ∧ s.renderingEnabled = true then [.onScanlineBoundary] else [])
        ++ s.trace := by
  unfold State.timingEvents
  by_cases h : s.timing.dot = 260 ∧ s.onRenderingLine = true ∧ s.renderingEnabled = true
  · rw [if_neg (by omega), if_neg (by omega), if_pos h, if_pos h]
    rfl
  · rw [if_neg h]
    repeat' split
    all_goals rfl

/-- The visible list after the sprite step: its count and `zeroPossible` are the old ones or those of a scan. -/
theorem spriteStep_list (s : State) :
    (s.spriteStep.sp.count = s.sp.count ∧ s.spriteStep.sp.zeroPossible = s.sp.zeroPossible) ∨
      s.spriteStep.sp = s.scan.sp := by
  unfold State.spriteStep
  repeat' split
  · unfold State.advanceSprites
    split
    · exact .inl ⟨rfl, rfl⟩
    · exact .inl ⟨rfl, rfl⟩
  · right
    simp only [State.evaluateSprites]
  · unfold State.fetchSprites
    have h := fetchSlots_kept slotNumbers s
    exact .inl ⟨h.count, h.zeroPossible⟩
  · exact .inl ⟨rfl, rfl⟩
  · exact .inl ⟨rfl, rfl⟩

/-- A whole scan (rules R191 to R196). -/
theorem scan_whole (s : State) :
    ScanResult s { sp := s.sp.clear, overflow := false } s.scan (entryNumbers.filter s.entryQualifies) :=
  scan_result s entryNumbers _ (by simp [Sprites.clear])

end Sys2Proof.Machine
end

