-- ==== Sys2Proof/Laws/Exec.lean ====
section
/-! SUPPORT. The effect of every host operation, said once: `effectOf` is the next state of an operation that has
one, and `exec_next` and `exec_attached` tie it to `exec`. -/

namespace Sys2Proof.Machine

/-- A notification that may be due is at most one call in the trace (rule R128). -/
theorem notifyIfA12Rises_eq (o : CompositeAddr) (s : State) :
    notifyIfA12Rises o s = { s with trace :=
      (if o.getLsbD 12 = false ∧ s.bank.v.getLsbD 12 = true then [.onScanlineBoundary] else []) ++ s.trace } := by
  unfold notifyIfA12Rises
  cases o.getLsbD 12 <;> cases s.bank.v.getLsbD 12 <;> simp [State.emit]

/-- The data-port read as one update of the state (rule R128). -/
theorem readDataPort_eq (s : State) :
    readDataPort s =
      let a := ppuAddr (busOf s.bank.v)
      let result := dataResult s (s.readValue a)
      { s with
        bank.readBuffer := s.readValue a
        bank.lastDataOut := result
        bank.v := s.bank.v + stride s.bank.ctrl
        returned := result :: s.returned
        mapper := s.mapper.afterRead
        trace := (if s.bank.v.getLsbD 12 = false ∧ (s.bank.v + stride s.bank.ctrl).getLsbD 12 = true
                    then [.onScanlineBoundary] else []) ++ (s.readCalls true a ++ s.trace) } := by
  unfold readDataPort
  simp only [State.memRead, notifyIfA12Rises_eq]
  rfl

/-- The next state of every host operation, where it has one. -/
def effectOf (i : Instr) (s : State) : State :=
  match i with
  | .wrCtrl d => { s with bank.ctrl := d, bank.t := ctrlIntoT s.bank.t d }
  | .wrMask d => { s with bank.mask := d }
  | .wrStatus _ => s
  | .wrOamaddr d => { s with bank.oamAddr := d }
  | .wrOamdata d =>
    { s with mem.oam := s.mem.oam.write s.bank.oamAddr.toNat d, bank.oamAddr := s.bank.oamAddr + 1#8 }
  | .wrScroll d => if s.bank.w then scrollSecond d s else scrollFirst d s
  | .wrAddr d => if s.bank.w then addrSecond d s else addrFirst d s
  | .wrData d => (s.memWrite (busOf s.bank.v) d).incV
  | .rdStatus => s.clearVblankAndToggle.giveBack (statusComposite s.bank.status s.statusLow)
  | .rdOamdata => s.incOamAddr.giveBack (s.oamByte s.bank.oamAddr.toNat)
  | .rdData => readDataPort s
  | .rdCtrl => s.giveBackDraw
  | .rdMask => s.giveBackDraw
  | .rdOamaddr => s.giveBackDraw
  | .rdScroll => s.giveBackDraw
  | .rdAddr => s.giveBackDraw
  | .dbgCtrl => s.giveBack s.bank.ctrl
  | .dbgMask => s.giveBack s.bank.mask
  | .dbgStatus => s.giveBack s.bank.status
  | .dbgOamaddr => s.giveBackDraw
  | .dbgOamdata => s.giveBackDraw
  | .dbgScroll => s.giveBackDraw
  | .dbgAddr => s.giveBackDraw
  | .dbgData => s.giveBackDraw
  | .tick => s.tick
  | .reset => s.reinitialize
  | .ackNmi => s.clearNmi
  | .ackFrame => s.clearFrameComplete

/-- Whether an operation calls the mapper in this state (rule R271): the data port always, a TICK by its dot. -/
def needsMapper (i : Instr) (s : State) : Bool :=
  match i with
  | .wrData _ => true
  | .rdData => true
  | .tick => s.callsMapper s.tick
  | .wrCtrl _ | .wrMask _ | .wrStatus _ | .wrOamaddr _ | .wrOamdata _ | .wrScroll _ | .wrAddr _ => false
  | .rdCtrl | .rdMask | .rdStatus | .rdOamaddr | .rdOamdata | .rdScroll | .rdAddr => false
  | .dbgCtrl | .dbgMask | .dbgStatus | .dbgOamaddr | .dbgOamdata | .dbgScroll | .dbgAddr | .dbgData => false
  | .reset | .ackNmi | .ackFrame => false

/-- All that an operation can answer: its effect, or the fault of a missing mapper where it needs one. -/
theorem exec_eq (i : Instr) (s : State) :
    exec i s = if needsMapper i s then s.withMapper (effectOf i s) else .next (effectOf i s) := by
  cases i <;> rfl

/-- Every operation's outcome is its effect, or the missing mapper's fault. -/
theorem exec_cases (i : Instr) (s : State) :
    exec i s = .next (effectOf i s) ∨ (exec i s = .fault .missingMapper ∧ s.mapper.attached = false) := by
  rw [exec_eq]
  unfold State.withMapper
  cases needsMapper i s <;> cases s.mapper.attached <;> simp

/-- An operation that needs no mapper in this state has its effect (rule R271). -/
theorem exec_noMapper {i : Instr} {s : State} (h : needsMapper i s = false) : exec i s = .next (effectOf i s) := by
  rw [exec_eq, h]
  rfl

/-- An operation that needs a mapper is stuck without one (rule R271). -/
theorem exec_stuck {i : Instr} {s : State} (h : needsMapper i s = true) (h' : s.mapper.attached = false) :
    exec i s = .fault .missingMapper := by
  rw [exec_eq, h, if_pos rfl, State.withMapper_missing _ h']

/-- A next state is the operation's effect. -/
theorem exec_next {i : Instr} {s t : State} (h : exec i s = .next t) : t = effectOf i s := by
  rcases exec_cases i s with h' | ⟨h', _⟩ <;> rw [h'] at h <;> cases h
  rfl

/-- With a mapper attached every operation has its effect. -/
theorem exec_attached (i : Instr) {s : State} (h : s.mapper.attached = true) : exec i s = .next (effectOf i s) := by
  rcases exec_cases i s with h' | ⟨_, h'⟩
  · exact h'
  · simp [h] at h'

/-- No operation takes back or issues a word. -/
theorem effectOf_driver (i : Instr) (s : State) : (effectOf i s).driver = s.driver := by
  cases i
  case tick => exact (tick_kept s).driver
  case rdData => simp only [effectOf, readDataPort_eq]
  case wrScroll d => simp only [effectOf]; split <;> rfl
  case wrAddr d => simp only [effectOf]; split <;> rfl
  all_goals rfl

/-- An operation only adds mapper calls. -/
theorem effectOf_trace (i : Instr) (s : State) : s.trace <:+ (effectOf i s).trace := by
  cases i
  case tick => exact (tick_kept s).trace
  case wrData d => exact List.suffix_append _ _
  case rdData => simp only [effectOf, readDataPort_eq]; exact ⟨_, List.append_assoc _ _ _⟩
  case wrScroll d => simp only [effectOf]; split <;> exact List.suffix_refl _
  case wrAddr d => simp only [effectOf]; split <;> exact List.suffix_refl _
  all_goals exact List.suffix_refl _

end Sys2Proof.Machine
end

