-- ==== Sys2Proof/Laws/PerInstr.lean ====
section
/-! SUPPORT. Statements made once per constructor of Instr. -/

namespace Sys2Proof.Laws

/-- The match and the mask of each row of rule R96, in the table's order. -/
def tableRow : Instr → HostWord × HostWord
  | .wrCtrl _ => (0x0000#16, 0xFF00#16)
  | .wrMask _ => (0x0100#16, 0xFF00#16)
  | .wrStatus _ => (0x0200#16, 0xFF00#16)
  | .wrOamaddr _ => (0x0300#16, 0xFF00#16)
  | .wrOamdata _ => (0x0400#16, 0xFF00#16)
  | .wrScroll _ => (0x0500#16, 0xFF00#16)
  | .wrAddr _ => (0x0600#16, 0xFF00#16)
  | .wrData _ => (0x0700#16, 0xFF00#16)
  | .rdCtrl => (0x2000#16, 0xFFFF#16)
  | .rdMask => (0x2100#16, 0xFFFF#16)
  | .rdStatus => (0x2200#16, 0xFFFF#16)
  | .rdOamaddr => (0x2300#16, 0xFFFF#16)
  | .rdOamdata => (0x2400#16, 0xFFFF#16)
  | .rdScroll => (0x2500#16, 0xFFFF#16)
  | .rdAddr => (0x2600#16, 0xFFFF#16)
  | .rdData => (0x2700#16, 0xFFFF#16)
  | .dbgCtrl => (0x4000#16, 0xFFFF#16)
  | .dbgMask => (0x4100#16, 0xFFFF#16)
  | .dbgStatus => (0x4200#16, 0xFFFF#16)
  | .dbgOamaddr => (0x4300#16, 0xFFFF#16)
  | .dbgOamdata => (0x4400#16, 0xFFFF#16)
  | .dbgScroll => (0x4500#16, 0xFFFF#16)
  | .dbgAddr => (0x4600#16, 0xFFFF#16)
  | .dbgData => (0x4700#16, 0xFFFF#16)
  | .tick => (0x6000#16, 0xFFFF#16)
  | .reset => (0x8000#16, 0xFFFF#16)
  | .ackNmi => (0xA000#16, 0xFFFF#16)
  | .ackFrame => (0xC000#16, 0xFFFF#16)

/-- The encoder's word of an operation carries its table row's match under the row's mask. -/
def TableRow.Statement (i : Instr) : Prop := encode i &&& (tableRow i).2 = (tableRow i).1

namespace TableRow

theorem wrCtrl (d : Byte) : TableRow.Statement (.wrCtrl d) := by unfold TableRow.Statement; revert d; decide
theorem wrMask (d : Byte) : TableRow.Statement (.wrMask d) := by unfold TableRow.Statement; revert d; decide
theorem wrStatus (d : Byte) : TableRow.Statement (.wrStatus d) := by unfold TableRow.Statement; revert d; decide
theorem wrOamaddr (d : Byte) : TableRow.Statement (.wrOamaddr d) := by unfold TableRow.Statement; revert d; decide
theorem wrOamdata (d : Byte) : TableRow.Statement (.wrOamdata d) := by unfold TableRow.Statement; revert d; decide
theorem wrScroll (d : Byte) : TableRow.Statement (.wrScroll d) := by unfold TableRow.Statement; revert d; decide
theorem wrAddr (d : Byte) : TableRow.Statement (.wrAddr d) := by unfold TableRow.Statement; revert d; decide
theorem wrData (d : Byte) : TableRow.Statement (.wrData d) := by unfold TableRow.Statement; revert d; decide
theorem rdCtrl : TableRow.Statement .rdCtrl := rfl
theorem rdMask : TableRow.Statement .rdMask := rfl
theorem rdStatus : TableRow.Statement .rdStatus := rfl
theorem rdOamaddr : TableRow.Statement .rdOamaddr := rfl
theorem rdOamdata : TableRow.Statement .rdOamdata := rfl
theorem rdScroll : TableRow.Statement .rdScroll := rfl
theorem rdAddr : TableRow.Statement .rdAddr := rfl
theorem rdData : TableRow.Statement .rdData := rfl
theorem dbgCtrl : TableRow.Statement .dbgCtrl := rfl
theorem dbgMask : TableRow.Statement .dbgMask := rfl
theorem dbgStatus : TableRow.Statement .dbgStatus := rfl
theorem dbgOamaddr : TableRow.Statement .dbgOamaddr := rfl
theorem dbgOamdata : TableRow.Statement .dbgOamdata := rfl
theorem dbgScroll : TableRow.Statement .dbgScroll := rfl
theorem dbgAddr : TableRow.Statement .dbgAddr := rfl
theorem dbgData : TableRow.Statement .dbgData := rfl
theorem tick : TableRow.Statement .tick := rfl
theorem reset : TableRow.Statement .reset := rfl
theorem ackNmi : TableRow.Statement .ackNmi := rfl
theorem ackFrame : TableRow.Statement .ackFrame := rfl

end TableRow

end Sys2Proof.Laws
end

