-- ==== Sys2Proof/Laws/Reads.lean ====
section
/-! SUPPORT. The mapper's side of a TICK, said once: which addresses each step reads, in order (rules R165 to R169,
R174, R197, R201, R228), what a fetch of the slots loads, which calls a whole TICK
makes, that an operation is never stuck while the driver keeps rule R305, and that no step looks at whether a mapper is
attached. -/

namespace Sys2Proof.Machine

/-! ### Sequences of reads -/

@[simp] theorem Mapper.afterReads_zero (m : Mapper) : m.afterReads 0 = m := rfl

@[simp] theorem Mapper.afterReads_attached (m : Mapper) (k : Nat) : (m.afterReads k).attached = m.attached := rfl
@[simp] theorem Mapper.afterReads_mirroring (m : Mapper) (k : Nat) : (m.afterReads k).mirroring = m.mirroring := rfl
@[simp] theorem Mapper.afterReads_writeAnswers (m : Mapper) (k : Nat) :
    (m.afterReads k).writeAnswers = m.writeAnswers := rfl

theorem Mapper.afterReads_succ (m : Mapper) (k : Nat) : m.afterReads (k + 1) = m.afterRead.afterReads k := by
  simp [Mapper.afterReads, Mapper.afterRead, Nat.add_comm, Nat.add_left_comm]

theorem Mapper.afterReads_one (m : Mapper) : m.afterReads 1 = m.afterRead := Mapper.afterReads_succ m 0

theorem Mapper.afterReads_add (m : Mapper) (j k : Nat) : m.afterReads (j + k) = (m.afterReads j).afterReads k := by
  simp [Mapper.afterReads, Nat.add_assoc]

theorem Mapper.transcript_append (m : Mapper) (as bs : List BusAddr) :
    m.transcript (as ++ bs) = m.transcript as ++ (m.afterReads as.length).transcript bs := by
  induction as generalizing m with
  | nil => rfl
  | cons a as ih => simp [Mapper.transcript, ih, Mapper.afterReads_succ]

/-- The calls of reads are no notification of a scanline boundary and no offer of a write. -/
theorem Mapper.transcript_mem (m : Mapper) (as : List BusAddr) :
    .onScanlineBoundary ∉ m.transcript as ∧ ∀ a b, .interceptWrite a b ∉ m.transcript as := by
  induction as generalizing m with
  | nil => simp [Mapper.transcript]
  | cons a as ih => cases h : m.readAnswer (ppuAddr a) <;> simp [Mapper.transcript, mirroringAsk, h, ih]

/-- From `s` to `t` the normal-mode reads of `as` were made, in that order, and no other call. -/
structure Reads (s t : State) (as : List BusAddr) : Prop where
  mapper : t.mapper = s.mapper.afterReads as.length
  trace : t.trace = (s.mapper.transcript as).reverse ++ s.trace

theorem Reads.none {s t : State} (h : t.mapper = s.mapper) (h' : t.trace = s.trace) : Reads s t [] := ⟨h, h'⟩

theorem Reads.one {s t : State} {a : BusAddr} (h : t.mapper = s.mapper.afterRead)
    (h' : t.trace = s.readCalls true (ppuAddr a) ++ s.trace) : Reads s t [a] := by
  refine ⟨h.trans (Mapper.afterReads_one _).symm, h'.trans ?_⟩
  unfold State.readCalls mirroringAsk
  simp only [Mapper.transcript, mirroringAsk]
  cases s.mapper.readAnswer (ppuAddr a) <;> cases inNametableRange (ppuAddr a) <;> simp

theorem Reads.trans {s t u : State} {as bs : List BusAddr} (h : Reads s t as) (h' : Reads t u bs) :
    Reads s u (as ++ bs) := by
  refine ⟨?_, ?_⟩
  · rw [h'.mapper, h.mapper, List.length_append, Mapper.afterReads_add]
  · rw [h'.trace, h.trace, h.mapper, Mapper.transcript_append, List.reverse_append, List.append_assoc]

/-- The two planes of a slot (rule R201). -/
def State.planes (s : State) (i : Fin 8) : List BusAddr :=
  if i.val < s.sp.count then [s.spriteAddr s.sp.slot[i], s.spriteAddr s.sp.slot[i] + 8#16] else []

/-- The loaded slot: each plane is the byte read, flipped when the attribute says so (rules R202, R203). -/
def Slot.loaded (sl : Slot) (lo hi : Byte) : Slot := { sl with lo := flipRow sl.attr lo, hi := flipRow sl.attr hi }

/-! ### The slots' fetch -/

/-- The value that a read sees of a state is the mapper's answer there, or the internal cell. -/
theorem State.readValue_after {s t : State} {k : Nat} (hm : t.mapper = s.mapper.afterReads k) (h1 : t.mem = s.mem)
    (h2 : t.bank.mask = s.bank.mask) (a : PpuAddr) :
    t.readValue a = ((s.mapper.afterReads k).readAnswer a).getD (s.internalRead a) := by
  unfold State.readValue
  rw [hm, State.internalRead_congr h1 h2 (by rw [hm]; rfl)]

/-- What a fetch of the slots `l` does: the reads of their planes, in order, and one load for each valid one. -/
theorem fetchSlots_result (l : List (Fin 8)) (s : State) (hl : l.Nodup) :
    Reads s (l.foldl State.fetchSlot s) (l.flatMap s.planes) ∧
    (∀ i, i ∉ l → (l.foldl State.fetchSlot s).sp.slot[i] = s.sp.slot[i]) ∧
    (∀ i pre post, l = pre ++ i :: post → (l.foldl State.fetchSlot s).sp.slot[i] =
      if i.val < s.sp.count then
        let k := (pre.flatMap s.planes).length
        s.sp.slot[i].loaded
          (((s.mapper.afterReads k).readAnswer (ppuAddr (s.spriteAddr s.sp.slot[i]))).getD
            (s.internalRead (ppuAddr (s.spriteAddr s.sp.slot[i]))))
          (((s.mapper.afterReads (k + 1)).readAnswer (ppuAddr (s.spriteAddr s.sp.slot[i] + 8#16))).getD
            (s.internalRead (ppuAddr (s.spriteAddr s.sp.slot[i] + 8#16))))
      else s.sp.slot[i]) := by
  induction l generalizing s with
  | nil => exact ⟨.none rfl rfl, fun _ _ => rfl, fun i pre post h => by simp at h⟩
  | cons j l ih =>
    obtain ⟨hj, hl⟩ := List.nodup_cons.1 hl
    obtain ⟨ih1, ih2, ih3⟩ := ih (s.fetchSlot j) hl
    have k := fetchSlot_kept s j
    have r : Reads s (s.fetchSlot j) (s.planes j) := by
      unfold State.planes
      by_cases h : j.val < s.sp.count
      · rw [if_pos h, fetchSlot_valid s j h]
        exact (Reads.one (t := s.afterRead true _) rfl rfl).trans (Reads.one rfl rfl)
      · rw [if_neg h, fetchSlot_invalid s j (by omega)]
        exact .none rfl rfl
    have other : ∀ i, i ≠ j → (s.fetchSlot j).sp.slot[i] = s.sp.slot[i] := by
      intro i hi
      by_cases h : j.val < s.sp.count
      · rw [fetchSlot_valid s j h]
        simp [Fin.getElem_fin, Vector.getElem_set_ne, Fin.val_ne_of_ne (Ne.symm hi)]
      · rw [fetchSlot_invalid s j (by omega)]
    have addr : ∀ sl, (s.fetchSlot j).spriteAddr sl = s.spriteAddr sl := by
      intro sl; simp only [State.spriteAddr, k.bank, k.timing]
    have pl : ∀ i, i ≠ j → (s.fetchSlot j).planes i = s.planes i := by
      intro i hi; simp only [State.planes, k.count, other i hi, addr]
    have pls : ∀ l' : List (Fin 8), j ∉ l' → l'.flatMap (s.fetchSlot j).planes = l'.flatMap s.planes := by
      intro l' h'
      exact List.flatMap_congr fun i hi => pl i (fun e => h' (e ▸ hi))
    refine ⟨?_, fun i hi => ?_, fun i pre post e => ?_⟩
    · rw [List.foldl_cons, List.flatMap_cons, ← pls l hj]
      exact r.trans ih1
    · rw [List.foldl_cons, ih2 i (fun h => hi (List.mem_cons_of_mem _ h))]
      exact other i (fun h => hi (h ▸ List.mem_cons_self))
    · rw [List.foldl_cons]
      cases pre with
      | nil =>
        obtain ⟨rfl, rfl⟩ := List.cons.inj e
        rw [ih2 j hj]
        by_cases h : j.val < s.sp.count
        · rw [fetchSlot_valid s j h, if_pos h]
          simp only [Fin.getElem_fin, Vector.getElem_set_self, List.flatMap_nil, List.length_nil]
          rw [State.readValue_after (s := s) (k := 1) (t := s.afterRead true _) (Mapper.afterReads_one _).symm rfl rfl]
          rfl
        · rw [fetchSlot_invalid s j (by omega), if_neg h]
      | cons p pre =>
        obtain ⟨rfl, rfl⟩ := List.cons.inj e
        have hij : i ≠ j := fun h => hj (by simp [h])
        have hjp : j ∉ pre := fun h => hj (by simp [h])
        have m : ∀ n, (s.fetchSlot j).mapper.afterReads n = s.mapper.afterReads ((s.planes j).length + n) := by
          intro n; rw [r.mapper, Mapper.afterReads_add]
        rw [ih3 i pre post rfl]
        simp only [k.count, other i hij, addr, pls pre hjp, m, List.flatMap_cons, List.length_append, Nat.add_assoc,
          State.internalRead_congr k.mem (congrArg RegisterBank.mask k.bank) k.mapper.mirroring]

/-- Every slot after the sprite fetch: slot i's planes are reads 2i and 2i + 1 (rules R197, R201 to R203). -/
theorem fetchSprites_slot (s : State) (i : Fin 8) :
    s.fetchSprites.sp.slot[i] =
      if i.val < s.sp.count then
        s.sp.slot[i].loaded
          (((s.mapper.afterReads (2 * i.val)).readAnswer (ppuAddr (s.spriteAddr s.sp.slot[i]))).getD
            (s.internalRead (ppuAddr (s.spriteAddr s.sp.slot[i]))))
          (((s.mapper.afterReads (2 * i.val + 1)).readAnswer (ppuAddr (s.spriteAddr s.sp.slot[i] + 8#16))).getD
            (s.internalRead (ppuAddr (s.spriteAddr s.sp.slot[i] + 8#16))))
      else s.sp.slot[i] := by
  have hp : slotNumbers = slotNumbers.take i.val ++ i :: slotNumbers.drop (i.val + 1) := by revert i; decide
  have hlt : ∀ i j : Fin 8, j ∈ slotNumbers.take i.val → j.val < i.val := by decide
  have hln : ∀ i : Fin 8, (slotNumbers.take i.val).length = i.val := by decide
  have r := (fetchSlots_result slotNumbers s (by decide)).2.2 i (slotNumbers.take i.val) _ hp
  unfold State.fetchSprites
  rw [r]
  clear r
  by_cases h : i.val < s.sp.count
  · have hpl : ∀ j ∈ slotNumbers.take i.val, (s.planes j).length = 2 := by
      intro j hj
      have := hlt i j hj
      simp [State.planes, show j.val < s.sp.count by omega]
    have hl : ((slotNumbers.take i.val).flatMap s.planes).length = 2 * i.val := by
      rw [List.length_flatMap, List.map_congr_left hpl, List.map_const', List.sum_replicate, hln i]
      simp [Nat.mul_comm]
    simp only [hl]
  · rw [if_neg h, if_neg h]

/-! ### The steps of a TICK -/

theorem afterFetch_reads (s : State) (a : Option BusAddr) : Reads s (s.afterFetch a) a.toList := by
  cases a with
  | none => exact .none rfl rfl
  | some a => exact .one rfl rfl

theorem backgroundStep_reads (s : State) :
    Reads s s.backgroundStep (if s.onRenderingLine then s.bgFetch.toList else []) := by
  rw [backgroundStep_eq]
  split
  · exact ⟨(afterFetch_reads s _).mapper, (afterFetch_reads s _).trace⟩
  · exact .none rfl rfl

theorem spriteStep_reads (s : State) :
    Reads s s.spriteStep
      (if s.onRenderingLine = true ∧ s.timing.dot = 340 then slotNumbers.flatMap s.planes else []) := by
  unfold State.spriteStep
  by_cases h : s.onRenderingLine = true
  · rw [if_pos h]
    by_cases h1 : 1 ≤ s.timing.dot ∧ s.timing.dot ≤ 257
    · rw [if_pos h1, if_neg (by omega)]
      unfold State.advanceSprites
      split <;> exact .none rfl rfl
    · rw [if_neg h1]
      by_cases h2 : s.timing.dot = 320
      · rw [if_pos h2, if_neg (by omega)]
        exact .none rfl rfl
      · rw [if_neg h2]
        by_cases h3 : s.timing.dot = 340
        · rw [if_pos h3, if_pos ⟨h, h3⟩]
          exact (fetchSlots_result slotNumbers s (by decide)).1
        · rw [if_neg h3, if_neg (fun e => h3 e.2)]
          exact .none rfl rfl
  · rw [if_neg h, if_neg (fun e => h e.1)]
    exact .none rfl rfl

theorem compositorStep_reads (s : State) :
    Reads s s.compositorStep
      (if s.inCompositorWindow = true ∧ s.timing.dot ≤ 256 then [colourAddr s.outPixel] else []) := by
  rw [compositorStep_eq]
  by_cases h : s.inCompositorWindow = true
  · rw [if_pos h]
    by_cases h1 : s.timing.dot ≤ 256
    · simp only [h, h1, and_self, if_true]
      exact .one rfl rfl
    · simp only [h, h1, and_false, if_false]
      exact .none rfl rfl
  · rw [if_neg h, if_neg (fun e => h e.1)]
    exact .none rfl rfl

/-- The reads of the work of a dot: the background's, the slots' and the pixel's. -/
theorem dotWork_reads (s : State) :
    Reads s s.dotWork
      ((if s.onRenderingLine then s.bgFetch.toList else []) ++
        (if s.onRenderingLine = true ∧ s.timing.dot = 340 then slotNumbers.flatMap s.planes else []) ++
        (if s.inCompositorWindow = true ∧ s.timing.dot ≤ 256 then
          [colourAddr s.backgroundStep.spriteStep.outPixel] else [])) := by
  have kb := backgroundStep_kept s
  have ks := spriteStep_kept s.backgroundStep
  have tb : s.backgroundStep.spriteStep.timing = s.timing := ks.timing.trans kb.timing
  have e1 : s.backgroundStep.onRenderingLine = s.onRenderingLine := by simp only [State.onRenderingLine, kb.timing]
  have e2 : s.backgroundStep.spriteStep.inCompositorWindow = s.inCompositorWindow := by
    simp only [State.inCompositorWindow, tb]
  have e3 : ∀ i, s.backgroundStep.planes i = s.planes i := by
    intro i; simp only [State.planes, kb.sp, State.spriteAddr, kb.ctrl, kb.timing]
  have r := ((backgroundStep_reads s).trans (spriteStep_reads s.backgroundStep)).trans
    (compositorStep_reads s.backgroundStep.spriteStep)
  rw [e1, e2, kb.timing, tb, List.flatMap_congr fun i _ => e3 i] at r
  exact r

/-- The mapper after a TICK has answered the reads of its dot and nothing else. -/
theorem tick_mapper (s : State) : s.tick.mapper = s.oddFrameSkip.dotWork.mapper := by
  rw [tick_eq, (advance_kept _).mapperKept, (timingEvents_kept _).mapperKept]

/-- The calls of a TICK: those of its dot's reads, then the notification of rule R245 where it is due. -/
theorem tick_trace (s : State) :
    s.tick.trace =
      (if s.oddFrameSkip.timing.dot = 260 ∧ s.onRenderingLine = true ∧ s.renderingEnabled = true
        then [.onScanlineBoundary] else []) ++ s.oddFrameSkip.dotWork.trace := by
  have h1 : s.oddFrameSkip.dotWork.onRenderingLine = s.onRenderingLine := by
    simp only [State.onRenderingLine, dotWork_timing, oddFrameSkip_eq]
  have h2 : s.oddFrameSkip.dotWork.renderingEnabled = s.renderingEnabled := by
    simp only [State.renderingEnabled, (dotWork_kept _).mask, (oddFrameSkip_kept s).mask]
  rw [tick_eq, (advance_kept _).traceKept, timingEvents_trace, dotWork_timing, h1, h2]

/-- Off the rendering scanlines a TICK makes no call. -/
theorem tick_trace_vblank {s : State} (h : s.onRenderingLine = false) : s.tick.trace = s.trace := by
  have h0 : s.oddFrameSkip.onRenderingLine = false := by
    rw [← h]
    simp only [State.onRenderingLine, oddFrameSkip_eq]
  have h1 : s.oddFrameSkip.inCompositorWindow = false := by
    revert h0
    simp only [State.onRenderingLine, State.inCompositorWindow, Bool.and_eq_false_iff, decide_eq_false_iff_not]
    omega
  have r := (dotWork_reads s.oddFrameSkip).trace
  rw [h0, h1] at r
  rw [tick_trace, if_neg (by simp [h]), r, oddFrameSkip_eq]
  simp [Mapper.transcript]

/-- An operation that calls the mapper is one before which the driver must attach it (rules R271, R305). -/
theorem asksForMapper_of_needsMapper {i : Instr} {s : State} (h : needsMapper i s = true) : asksForMapper i s = true := by
  cases i
  case tick =>
    by_contra h'
    have e := tick_trace_vblank (s := s) (by simpa [asksForMapper] using h')
    simp [needsMapper, State.callsMapper, e] at h
  all_goals exact h

/-- While the driver keeps rule R305, every operation takes its step. -/
theorem exec_keepsMapperRule {i : Instr} {s : State} (h : keepsMapperRule i s = true) : exec i s = .next (effectOf i s) := by
  cases hn : needsMapper i s
  · exact exec_noMapper hn
  · exact exec_attached i (by simpa [keepsMapperRule, asksForMapper_of_needsMapper hn] using h)

/-! ### No step looks at `attached` -/

/-- The same machine with its mapper present or absent. -/
def State.withAttached (b : Bool) (s : State) : State := { s with mapper.attached := b }

/-- A step that does the same work whether a mapper is attached or not. -/
def Blind (f : State → State) : Prop := ∀ s b, f (s.withAttached b) = (f s).withAttached b

theorem Blind.comp {f g : State → State} (hg : Blind g) (hf : Blind f) : Blind fun s => g (f s) := by
  intro s b
  show g (f (s.withAttached b)) = _
  rw [hf, hg]

theorem Blind.ite {c : State → Prop} [∀ s, Decidable (c s)] {f g : State → State}
    (hc : ∀ s b, c (s.withAttached b) = c s) (hf : Blind f) (hg : Blind g) : Blind fun s => if c s then f s else g s := by
  intro s b
  simp only [hc]
  split
  · exact hf s b
  · exact hg s b

theorem blind_id : Blind fun s => s := fun _ _ => rfl

theorem phaseAction_blind : Blind State.phaseAction := by
  intro s b
  unfold State.phaseAction
  rw [show (s.withAttached b).timing.dot = s.timing.dot from rfl]
  split
  case h_5 =>
    exact Blind.ite (c := fun s => s.renderingEnabled = true) (f := fun s => { s with bank.v := incCoarseX s.bank.v })
      (fun _ _ => rfl) (fun _ _ => rfl) blind_id s b
  all_goals rfl

theorem backgroundStep_blind : Blind State.backgroundStep := by
  refine Blind.ite (fun _ _ => rfl) (Blind.comp ?_ ?_) blind_id
  · refine Blind.ite (fun _ _ => rfl) ?_ <| Blind.ite (fun _ _ => rfl) ?_ <| Blind.ite (fun _ _ => rfl) ?_ <|
      Blind.ite (fun _ _ => rfl) ?_ blind_id
    · exact Blind.ite (c := fun s => s.renderingEnabled = true) (fun _ _ => rfl) (fun _ _ => rfl) blind_id
    · exact Blind.comp (Blind.ite (c := fun s => s.renderingEnabled = true) (fun _ _ => rfl) (fun _ _ => rfl) blind_id)
        fun _ _ => rfl
    · exact fun _ _ => rfl
    · exact Blind.ite (c := fun s => s.renderingEnabled = true) (fun _ _ => rfl) (fun _ _ => rfl) blind_id
  · exact Blind.ite (fun _ _ => rfl)
      (Blind.comp phaseAction_blind (Blind.ite (c := fun s => s.showBg = true) (fun _ _ => rfl) (fun _ _ => rfl) blind_id))
      blind_id

theorem fetchSlot_blind (i : Fin 8) : Blind fun s => s.fetchSlot i :=
  Blind.ite (c := fun s => i.val < s.sp.count) (fun _ _ => rfl) (fun _ _ => rfl) blind_id

theorem fetchSlots_blind (l : List (Fin 8)) : Blind fun s => l.foldl State.fetchSlot s := by
  induction l with
  | nil => exact blind_id
  | cons i l ih => exact ih.comp (fetchSlot_blind i)

theorem spriteStep_blind : Blind State.spriteStep :=
  Blind.ite (fun _ _ => rfl)
    (Blind.ite (fun _ _ => rfl)
      (Blind.ite (c := fun s => s.showSp = true) (fun _ _ => rfl) (fun _ _ => rfl) blind_id) <|
      Blind.ite (fun _ _ => rfl) (fun _ _ => rfl) <|
      Blind.ite (fun _ _ => rfl) (fetchSlots_blind slotNumbers) blind_id)
    blind_id

theorem compositorStep_blind : Blind State.compositorStep :=
  Blind.ite (fun _ _ => rfl)
    (Blind.comp (Blind.ite (c := fun s => s.timing.dot ≤ 256) (fun _ _ => rfl) (fun _ _ => rfl) blind_id)
      (Blind.ite (c := fun s => s.spriteZeroHit = true) (fun _ _ => rfl) (fun _ _ => rfl) blind_id))
    blind_id

theorem timingEvents_blind : Blind State.timingEvents :=
  Blind.ite (fun _ _ => rfl) (fun _ _ => rfl) <| Blind.ite (fun _ _ => rfl) (fun _ _ => rfl) <|
    Blind.ite (fun _ _ => rfl) (fun _ _ => rfl) blind_id

theorem oddFrameSkip_blind : Blind State.oddFrameSkip := Blind.ite (fun _ _ => rfl) (fun _ _ => rfl) blind_id

theorem advance_blind : Blind State.advance :=
  Blind.ite (fun _ _ => rfl)
    (Blind.comp (Blind.ite (c := fun s => s.timing.scanline + 1 > 260) (fun _ _ => rfl) (fun _ _ => rfl) (fun _ _ => rfl))
      fun _ _ => rfl)
    (fun _ _ => rfl)

/-- A TICK does the same work without a mapper as with one; only whether it may take that step differs (rule R271). -/
theorem tick_blind : Blind State.tick := by
  show Blind fun s => s.oddFrameSkip.backgroundStep.spriteStep.compositorStep.timingEvents.advance
  exact .comp advance_blind <| .comp timingEvents_blind <| .comp compositorStep_blind <| .comp spriteStep_blind <|
    .comp backgroundStep_blind oddFrameSkip_blind

end Sys2Proof.Machine
end

