-- ==== Sys2Proof/Machine/Pseudo.lean ====
section
/-! DEFINITION. The assembler's lines and what they expand to (rules R98, R99). The block never sees a line:
the driver issues the words. -/

namespace Sys2Proof

/-- A line of rule R98 (the first seven) or a pseudo-instruction of rule R99 (the others), its operands
already numbers. -/
inductive AsmLine where
  | wr (p : Port) (imm : Byte)
  | rd (p : Port)
  | dbg (p : Port)
  | tick
  | reset
  | ackNmi
  | ackFrame
  | ticks (n : Nat)
  | setAddr (a : BitVec 16)
  | setScroll (x y : Byte)
  | latchReset
  | wrs (p : Port) (bs : List Byte)
  | fill (p : Port) (b : Byte) (n : Nat)
deriving DecidableEq, Repr

/-- The host operations a line stands for, in the order the driver issues them (rules R98, R99). -/
def AsmLine.operations : AsmLine → List Instr
  | .wr p imm => [writeOf p imm]
  | .rd p => [readOf p]
  | .dbg p => [debugOf p]
  | .tick => [.tick]
  | .reset => [.reset]
  | .ackNmi => [.ackNmi]
  | .ackFrame => [.ackFrame]
  | .ticks n => List.replicate n .tick
  | .setAddr a => [.wrAddr (a.extractLsb' 8 8), .wrAddr (a.extractLsb' 0 8)]
  | .setScroll x y => [.wrScroll x, .wrScroll y]
  | .latchReset => [.rdStatus]
  | .wrs p bs => bs.map (writeOf p)
  | .fill p b n => List.replicate n (writeOf p b)

/-- The host operation words of a line. -/
def AsmLine.words (l : AsmLine) : List HostWord := l.operations.map encode

end Sys2Proof
end

