-- ==== Sys2Proof/Tests/Slice0.lean ====
section
/-! SUPPORT. The model's own tests. Every expected value is a literal of the spec's, most of them from
spec/95_test_vectors.md (the section is named at each group); the last part holds a witness for every statement
that has hypotheses. -/

namespace Sys2Proof.Tests

open Sys2Proof Sys2Proof.Machine

/-! ### Helpers -/

/-- The test mapper M0 of spec/95_test_vectors.md section 0, for the next `n` questions of each kind. -/
def mapperM0 (n : Nat) : Mapper :=
  { State.reset.mapper with readAnswers := List.replicate n none, writeAnswers := List.replicate n false }

/-- The start state S0, with mapper M0. -/
def s0 : State := { State.reset with mapper := mapperM0 20 }

/-- S0 with no mapper attached. -/
def bare : State := { State.reset with mapper.attached := false }

/-- S0 at a raster position. -/
def s0At (line : Int) (dot : Nat) : State := { s0 with timing.scanline := line, timing.dot := dot }

/-- The outcome is a next state that has `p`. -/
def after (o : Host.Outcome State Fault Refusal) (p : State → Bool) : Bool :=
  match o with
  | .next t => p t
  | .fault _ => false
  | .refused _ => false

/-- The outcome is the refusal `r`. -/
def stopsWith (o : Host.Outcome State Fault Refusal) (r : Refusal) : Bool :=
  match o with
  | .next _ => false
  | .fault _ => false
  | .refused r' => r' == r

/-! ### Well-formedness: one ill-formed term for each check of rule R94 -/

theorem test_wf_accepts : (portFields .wr .data 0xFF#8).wellFormed = true := by decide
theorem test_wf_rsv : ({ op := 0b011#3, rsv := 0b10#2, port := 0#3, data := 0#8 } : HostFields).rsvZero = false ∧
    ({ op := 0b011#3, rsv := 0b10#2, port := 0#3, data := 0#8 } : HostFields).wellFormed = false := by decide
theorem test_wf_op : ({ op := 0b111#3, rsv := 0#2, port := 0#3, data := 0#8 } : HostFields).opDefined = false ∧
    ({ op := 0b111#3, rsv := 0#2, port := 0#3, data := 0#8 } : HostFields).wellFormed = false := by decide
theorem test_wf_port : ({ op := 0b011#3, rsv := 0#2, port := 1#3, data := 0#8 } : HostFields).portZeroIfUnused = false ∧
    ({ op := 0b011#3, rsv := 0#2, port := 1#3, data := 0#8 } : HostFields).wellFormed = false := by decide
theorem test_wf_data : ({ op := 0b001#3, rsv := 0#2, port := 2#3, data := 1#8 } : HostFields).dataZeroIfUnused = false ∧
    ({ op := 0b001#3, rsv := 0#2, port := 2#3, data := 1#8 } : HostFields).wellFormed = false := by decide

/-! ### Decoding: a word of every row, bit by bit from rule R96's encoding column -/

theorem test_decode_wrCtrl : decode 0b0000000010000011#16 = .ok (.wrCtrl 0x83#8) := by decide
theorem test_decode_wrMask : decode 0b0000000100011110#16 = .ok (.wrMask 0x1E#8) := by decide
theorem test_decode_wrStatus : decode 0b0000001011111111#16 = .ok (.wrStatus 0xFF#8) := by decide
theorem test_decode_wrOamaddr : decode 0b0000001100000010#16 = .ok (.wrOamaddr 0x02#8) := by decide
theorem test_decode_wrOamdata : decode 0b0000010001000000#16 = .ok (.wrOamdata 0x40#8) := by decide
theorem test_decode_wrScroll : decode 0b0000010100101011#16 = .ok (.wrScroll 0x2B#8) := by decide
theorem test_decode_wrAddr : decode 0b0000011000010000#16 = .ok (.wrAddr 0x10#8) := by decide
theorem test_decode_wrData : decode 0b0000011111111111#16 = .ok (.wrData 0xFF#8) := by decide
theorem test_decode_rdCtrl : decode 0b0010000000000000#16 = .ok .rdCtrl := by decide
theorem test_decode_rdMask : decode 0b0010000100000000#16 = .ok .rdMask := by decide
theorem test_decode_rdStatus : decode 0b0010001000000000#16 = .ok .rdStatus := by decide
theorem test_decode_rdOamaddr : decode 0b0010001100000000#16 = .ok .rdOamaddr := by decide
theorem test_decode_rdOamdata : decode 0b0010010000000000#16 = .ok .rdOamdata := by decide
theorem test_decode_rdScroll : decode 0b0010010100000000#16 = .ok .rdScroll := by decide
theorem test_decode_rdAddr : decode 0b0010011000000000#16 = .ok .rdAddr := by decide
theorem test_decode_rdData : decode 0b0010011100000000#16 = .ok .rdData := by decide
theorem test_decode_dbgCtrl : decode 0b0100000000000000#16 = .ok .dbgCtrl := by decide
theorem test_decode_dbgMask : decode 0b0100000100000000#16 = .ok .dbgMask := by decide
theorem test_decode_dbgStatus : decode 0b0100001000000000#16 = .ok .dbgStatus := by decide
theorem test_decode_dbgOamaddr : decode 0b0100001100000000#16 = .ok .dbgOamaddr := by decide
theorem test_decode_dbgOamdata : decode 0b0100010000000000#16 = .ok .dbgOamdata := by decide
theorem test_decode_dbgScroll : decode 0b0100010100000000#16 = .ok .dbgScroll := by decide
theorem test_decode_dbgAddr : decode 0b0100011000000000#16 = .ok .dbgAddr := by decide
theorem test_decode_dbgData : decode 0b0100011100000000#16 = .ok .dbgData := by decide
theorem test_decode_tick : decode 0b0110000000000000#16 = .ok .tick := by decide
theorem test_decode_reset : decode 0b1000000000000000#16 = .ok .reset := by decide
theorem test_decode_ackNmi : decode 0b1010000000000000#16 = .ok .ackNmi := by decide
theorem test_decode_ackFrame : decode 0b1100000000000000#16 = .ok .ackFrame := by decide

/-- The refused words of section L2.1. -/
theorem test_decode_refuses :
    [0x2201#16, 0x47FF#16, 0x6100#16, 0x6001#16].map decode = List.replicate 4 (.error .nonzeroUnusedField) ∧
    [0x0800#16, 0x1000#16, 0xFFFF#16].map decode = List.replicate 3 (.error .reservedBits) ∧
    decode 0xE000#16 = .error .reservedOp := by decide

/-- What the host asks of the decoder. -/
theorem test_decodeTableWord :
    decodeTableWord 16 0x0612 = some (.wrAddr 0x12#8) ∧ decodeTableWord 16 0xE000 = none ∧
    decodeTableWord 16 0x10612 = none := by decide

/-- Rule R99's expansions: SETADDR 0x3F10, LATCHRESET and FILL OAMDATA, 0xFF, 2. -/
theorem test_pseudo :
    (AsmLine.setAddr 0x3F10#16).words = [0x063F#16, 0x0610#16] ∧ AsmLine.latchReset.words = [0x2200#16] ∧
    (AsmLine.fill .oamdata 0xFF#8 2).words = [0x04FF#16, 0x04FF#16] ∧ (AsmLine.ticks 2).words = [0x6000#16, 0x6000#16] := by
  decide

/-! ### The step -/

theorem test_step_runs_the_first_word :
    after (step (State.reset.withFetchWord 16 0x011E)) (fun t => t.bank.mask == 0x1E#8 && t.driver == []) = true := by decide
theorem test_step_refuses : stopsWith (step (State.reset.withFetchWord 16 0xE000)) (.reservedOp 0xE000#16) = true := by decide

/-! ### Port writes (sections L1 and L2.2) -/

theorem test_wrCtrl_sets_t :
    after (exec (.wrCtrl 0x83#8) s0) (fun t => t.bank.ctrl == 0x83#8 && t.bank.t == 0x0C00#15) = true := by decide
theorem test_wrCtrl_clears_only_nt :
    after (exec (.wrCtrl 0x00#8) { s0 with bank.t := 0x7FFF#15 }) (fun t => t.bank.t == 0x73FF#15) = true := by decide
theorem test_wrMask : after (exec (.wrMask 0xFF#8) s0) (fun t => t.bank.mask == 0xFF#8) = true := by decide
theorem test_wrStatus_ignored :
    after (exec (.wrStatus 0xFF#8) { s0 with bank.status := 0x80#8, bank.w := true })
      (fun t => t == { s0 with bank.status := 0x80#8, bank.w := true }) = true := by decide
theorem test_wrOamaddr : after (exec (.wrOamaddr 0xFE#8) s0) (fun t => t.bank.oamAddr == 0xFE#8) = true := by decide
theorem test_wrOamdata_wraps :
    after (exec (.wrOamdata 0x77#8) { s0 with bank.oamAddr := 0xFF#8 })
      (fun t => t.mem.oam == [(0xFF, 0x77#8)] && t.bank.oamAddr == 0x00#8) = true := by decide
theorem test_wrScroll_first :
    after (exec (.wrScroll 0x2B#8) s0) (fun t => t.bank.fineX == 3#3 && t.bank.t == 0x0005#15 && t.bank.w) = true := by decide
theorem test_wrScroll_second :
    after (exec (.wrScroll 0xF5#8) { s0 with bank.w := true })
      (fun t => t.bank.t == 0x53C0#15 && t.bank.fineX == 0#3 && !t.bank.w) = true := by decide
theorem test_wrAddr_first :
    after (exec (.wrAddr 0xFF#8) { s0 with bank.t := 0x7FFF#15 })
      (fun t => t.bank.t == 0x3FFF#15 && t.bank.v == 0x0000#15 && t.bank.w) = true := by decide
theorem test_wrAddr_second :
    after (exec (.wrAddr 0x08#8) { s0 with bank.t := 0x2100#15, bank.w := true })
      (fun t => t.bank.t == 0x2108#15 && t.bank.v == 0x2108#15 && !t.bank.w) = true := by decide
theorem test_wrData_palette_alias :
    after (exec (.wrData 0x12#8) { s0 with bank.v := 0x7FF0#15, bank.ctrl := 0x04#8 })
      (fun t => t.mem.pal == [(0x00, 0x12#8)] && t.bank.v == 0x0010#15) = true := by decide
theorem test_wrData_never_notifies_a_boundary :
    after (exec (.wrData 0x01#8) { s0 with bank.v := 0x0FFF#15 })
      (fun t => t.mem.pt == [(0xFFF, 0x01#8)] && t.bank.v == 0x1000#15 &&
        t.trace == [.onLatchUpdate 0x0FFF#14, .interceptWrite 0x0FFF#14 0x01#8]) = true := by decide

/-! ### Port reads (sections L1 and L2.3) -/

/-- A read of a port that gives a draw changes nothing of the block (sections L2.3: `RD CTRL`, `DBG DATA`). -/
theorem test_rdCtrl_changes_nothing : after (exec .rdCtrl s0) (fun t => { t with returned := [] } == { s0 with draws := 1 }) = true := by decide
theorem test_rdMask_no_call : after (exec .rdMask s0) (fun t => t.trace == [] && t.bank == s0.bank) = true := by decide
theorem test_rdOamaddr_no_move :
    after (exec .rdOamaddr { s0 with bank.oamAddr := 5#8 }) (fun t => t.bank.oamAddr == 5#8) = true := by decide
theorem test_rdScroll_no_toggle : after (exec .rdScroll { s0 with bank.w := true }) (fun t => t.bank.w) = true := by decide
theorem test_rdAddr_no_toggle : after (exec .rdAddr { s0 with bank.w := true }) (fun t => t.bank.w) = true := by decide
theorem test_rdStatus_last_returned :
    after (exec .rdStatus { s0 with bank.status := 0xC0#8, bank.lastDataOut := 0x2B#8, bank.w := true })
      (fun t => t.returned == [0xCB#8] && t.bank.status == 0x40#8 && !t.bank.w) = true := by decide
theorem test_rdStatus_read_buffer :
    after (exec .rdStatus { s0 with bank.status := 0x80#8, bank.readBuffer := 0x12#8, statusLowSource := .readBuffer })
      (fun t => t.returned == [0x92#8] && t.bank.status == 0x00#8) = true := by decide
theorem test_rdOamdata :
    after (exec .rdOamdata { s0 with bank.oamAddr := 0x02#8, mem.oam := [(1, 0x01#8), (2, 0x40#8)] })
      (fun t => t.returned == [0x40#8] && t.bank.oamAddr == 0x03#8) = true := by decide
/-- The mapper calls of one `RD DATA` at `v` = 0x0FFF, and the stale byte (sections L1 vector 4 and L2.3). -/
theorem test_rdData_buffered :
    after (exec .rdData { s0 with bank.v := 0x0FFF#15, bank.readBuffer := 0x5A#8, mem.pt := [(0xFFF, 0x66#8)] })
      (fun t => t.returned == [0x5A#8] && t.bank.readBuffer == 0x66#8 && t.bank.lastDataOut == 0x5A#8 &&
        t.bank.v == 0x1000#15 && t.trace == [.onScanlineBoundary, .onLatchUpdate 0x0FFF#14, .interceptRead 0x0FFF#14]) = true := by
  decide
theorem test_rdData_palette_at_once :
    after (exec .rdData { s0 with bank.v := 0x3F01#15, bank.mask := 0x01#8, mem.pal := [(1, 0xFF#8)] })
      (fun t => t.returned == [0x30#8] && t.bank.readBuffer == 0x30#8 && t.bank.v == 0x3F02#15) = true := by decide
theorem test_dbgCtrl : after (exec .dbgCtrl { s0 with bank.ctrl := 0x83#8 }) (fun t => t.returned == [0x83#8]) = true := by decide
theorem test_dbgMask : after (exec .dbgMask { s0 with bank.mask := 0x1E#8 }) (fun t => t.returned == [0x1E#8]) = true := by decide
theorem test_dbgStatus_clears_nothing :
    after (exec .dbgStatus { s0 with bank.status := 0x80#8, bank.w := true })
      (fun t => t.returned == [0x80#8] && t.bank.status == 0x80#8 && t.bank.w) = true := by decide
theorem test_dbgOamaddr : after (exec .dbgOamaddr s0) (fun t => t.bank == s0.bank) = true := by decide
theorem test_dbgOamdata_no_move :
    after (exec .dbgOamdata { s0 with bank.oamAddr := 5#8 }) (fun t => t.bank.oamAddr == 5#8) = true := by decide
theorem test_dbgScroll : after (exec .dbgScroll s0) (fun t => t.bank == s0.bank) = true := by decide
theorem test_dbgAddr : after (exec .dbgAddr s0) (fun t => t.bank == s0.bank) = true := by decide
theorem test_dbgData_no_call :
    after (exec .dbgData { s0 with bank.v := 0x0FFF#15 }) (fun t => t.trace == [] && t.bank.v == 0x0FFF#15) = true := by decide

/-! ### Memory decode (sections L1 vector 2 and L2.4) -/

theorem test_nametable_cells :
    [0x23FF#14, 0x27C0#14, 0x2BFF#14, 0x3000#14, 0x3EFF#14].map (ntIndex .vertical) = [0x3FF, 0x7C0, 0x3FF, 0x000, 0x6FF] ∧
    [0x23FF#14, 0x27C0#14, 0x2BFF#14, 0x3000#14, 0x3EFF#14].map (ntIndex .horizontal) = [0x3FF, 0x3C0, 0x7FF, 0x000, 0x6FF] := by
  decide
theorem test_palette_cells :
    [0x3F00#14, 0x3F10#14, 0x3F11#14, 0x3F14#14, 0x3F20#14, 0x3FFF#14].map palIndex = [0x00, 0x00, 0x11, 0x04, 0x00, 0x1F] ∧
    ppuAddr (busOf 0x7F10#15) = 0x3F10#14 := by decide

/-! ### The background pipeline (section L2.5) -/

theorem test_incX : [0x0000#15, 0x001F#15, 0x041F#15].map incCoarseX = [0x0001#15, 0x0400#15, 0x0000#15] := by decide
theorem test_incY :
    [0x3000#15, 0x73A0#15, 0x7BA0#15, 0x73C0#15, 0x73E0#15].map incFineY =
      [0x4000#15, 0x0800#15, 0x0000#15, 0x03E0#15, 0x0000#15] := by decide
theorem test_attribute :
    [0x0000#15, 0x0002#15, 0x0040#15, 0x0042#15, 0x0FBF#15, 0x0004#15].map attrAddr =
      [0x23C0#16, 0x23C0#16, 0x23C0#16, 0x23C0#16, 0x2FFF#16, 0x23C1#16] ∧
    [0x0000#15, 0x0002#15, 0x0040#15, 0x0042#15, 0x0FBF#15, 0x0004#15].map (fun v => attrQuadrant v 0xE4#8) =
      [0#2, 1#2, 2#2, 3#2, 1#2, 0#2] := by decide
theorem test_pattern_address :
    bgPatternAddr 1#1 0xFF#8 7#3 = 0x1FF7#16 ∧ bgPatternAddr 0#1 0x01#8 0#3 + 8#16 = 0x0018#16 := by decide
theorem test_transfers :
    copyHorizontal 0x7BE0#15 0x0415#15 = 0x7FF5#15 ∧ copyVertical 0x0402#15 0x4845#15 = 0x4C42#15 := by decide
theorem test_reload :
    (({ Background.reset with patLo := 0x12FF#16, nextLo := 0x5A#8, nextAttr := 0b10#2 } : Background).load).patLo = 0x125A#16 ∧
    (({ Background.reset with nextAttr := 0b10#2 } : Background).load).attrLo = 0x0000#16 ∧
    (({ Background.reset with nextAttr := 0b10#2 } : Background).load).attrHi = 0x00FF#16 := by decide

/-! ### Sprites (sections L2.6 and L2.7) -/

theorem test_qualifies :
    [10#8, 3#8, 2#8, 11#8, 0xFF#8].map (qualifies 10 8) = [true, true, false, false, false] ∧
    qualifies 15 16 0#8 = true ∧ qualifies 16 16 0#8 = false := by decide
/-- A slot with Y = 0, fetched for the scanline `row`. -/
def slotOf (id attr : Byte) : Slot := { Slot.reset with y := 0#8, id := id, attr := attr }
theorem test_sprite_addresses :
    [spriteAddr8 1#1 3 (slotOf 0x42#8 0#8), spriteAddr8 1#1 3 (slotOf 0x42#8 0x80#8), spriteAddr8 0#1 7 (slotOf 0xFF#8 0#8),
      spriteAddr16 9 (slotOf 0x43#8 0#8), spriteAddr16 9 (slotOf 0x43#8 0x80#8), spriteAddr16 0 (slotOf 0x42#8 0#8),
      spriteAddr16 15 (slotOf 0x42#8 0x80#8)] =
    [0x1423#16, 0x1424#16, 0x0FF7#16, 0x1431#16, 0x1426#16, 0x0420#16, 0x0420#16] := by decide
theorem test_flip : flipRow 0x40#8 0xC1#8 = 0x83#8 ∧ flipRow 0x40#8 0x01#8 = 0x80#8 ∧ flipRow 0x00#8 0xC1#8 = 0xC1#8 := by decide
theorem test_shift_delay :
    ({ Slot.reset with x := 1#8, lo := 0x80#8 } : Slot).advance = { Slot.reset with x := 0#8, lo := 0x80#8 } ∧
    ({ Slot.reset with x := 0#8, lo := 0x80#8 } : Slot).advance.lo = 0x00#8 := by decide

/-- OAM: the first eight entries are (10, 0x01, 0x00, 8·i), the Y of the ninth is `y8`, every other Y is 0xFF. -/
def oamOf (y8 : Byte) : Memory :=
  (List.range 32).map (fun k => (k, if k % 4 = 0 then 10#8 else if k % 4 = 1 then 0x01#8 else if k % 4 = 2 then 0x00#8
    else BitVec.ofNat 8 (8 * (k / 4)))) ++
  (32, y8) :: (List.range 55).map (fun k => (36 + 4 * k, 0xFF#8))

/-! ### The compositor (section L2.8) -/

/-- A background pixel and a sprite pixel of slot 0, palette 4 + p. -/
def fgOf (px p : BitVec 2) (front : Bool) : FgPixel := { pixel := px, pal := 1#1 ++ p, front := front, slot := some 0 }
theorem test_compose :
    [colourAddr (compose ⟨0#2, 3#2⟩ FgPixel.transparent), colourAddr (compose ⟨0#2, 0#2⟩ (fgOf 2#2 1#2 true)),
      colourAddr (compose ⟨3#2, 2#2⟩ FgPixel.transparent), colourAddr (compose ⟨1#2, 0#2⟩ (fgOf 1#2 0#2 true)),
      colourAddr (compose ⟨1#2, 0#2⟩ (fgOf 1#2 0#2 false)), colourAddr (compose ⟨0#2, 0#2⟩ (fgOf 3#2 3#2 false))] =
    [0x3F00#16, 0x3F16#16, 0x3F0B#16, 0x3F11#16, 0x3F01#16, 0x3F1F#16] := by decide

/-- A machine whose slot 0 (attribute `attr`) and background show an opaque pixel at (10, dot). -/
def hitState (mask attr : Byte) (dot : Nat) : State :=
  { s0At 10 dot with
    bank.mask := mask, bg.patLo := 0x8000#16
    sp := { slot := Vector.replicate 8 { slotOf 1#8 attr with x := 0#8, lo := 0x80#8 }, count := 1, zeroPossible := true } }
theorem test_zero_hit :
    [(hitState 0x18#8 0#8 8), (hitState 0x18#8 0#8 9), (hitState 0x1A#8 0#8 5), (hitState 0x1E#8 0#8 1),
      (hitState 0x1E#8 0#8 257), (hitState 0x1E#8 0x20#8 100), (hitState 0x10#8 0#8 100)].map State.spriteZeroHit =
    [false, true, false, true, true, true, false] := by decide

/-! ### TICK (section L2.9) and host control (section L2.10) -/

/-- Vector 6: nine entries match scanline 10; the list has eight and the overflow flag rises. -/
theorem test_tick_sprite_cap :
    after (exec .tick { s0At 9 320 with mem.oam := oamOf 10#8 }) (fun t => t.sp.count == 8 && t.bank.status == 0x20#8 &&
      t.sp.zeroPossible && t.sp.slot[7] == { Slot.reset with y := 10#8, id := 0x01#8, attr := 0x00#8, x := 56#8 }) = true := by decide
/-- Vector 8: the interrupt request and the vblank flag at (241, 1). -/
theorem test_tick_vblank :
    after (exec .tick { s0At 241 1 with bank.ctrl := 0x80#8 })
      (fun t => t.timing.nmiPending && t.bank.status == 0x80#8 && t.timing.dot == 2) = true := by decide
theorem test_reset :
    after (exec .reset { s0At 100 37 with bank.ctrl := 0x80#8, timing.nmiPending := true, mem.oam := [(0, 0x33#8)] })
      (fun t => t == { s0 with mem.oam := [(0, 0x33#8)] }) = true := by decide
theorem test_ackNmi :
    after (exec .ackNmi { s0 with timing.nmiPending := true, bank.status := 0x80#8 })
      (fun t => !t.timing.nmiPending && t.bank.status == 0x80#8) = true := by decide
theorem test_ackFrame :
    after (exec .ackFrame { s0 with timing.frameComplete := true }) (fun t => !t.timing.frameComplete) = true := by decide

/-! ### Witnesses: for every statement with hypotheses, a state and operands that meet them, clause by clause -/

/-- A mapper that intercepts the next read with 0x5A and takes the next write. -/
def intercepting : State := { s0 with mapper.readAnswers := [some 0x5A#8], mapper.writeAnswers := [true] }

/-- S0 at the odd frame's (0, 0) with the background shown: the skip of rule R242. -/
def skipping : State := { s0At 0 0 with timing.oddFrame := true, bank.mask := 0x08#8 }

/-- S0 at a raster position with the mask 0x1E: both layers shown everywhere. -/
def shownAt (line : Int) (dot : Nat) : State := { s0At line dot with bank.mask := 0x1E#8 }

/-- OAM with only Y cells listed: none qualifies. -/
def oamEmpty : Memory := (List.range 64).map fun k => (4 * k, 0xFF#8)

theorem witness_DecodeEncodeAgree : decode 0xC000#16 = .ok .ackFrame ∧ decode 0x07FF#16 = .ok (.wrData 0xFF#8) := by decide

/-- One word for each branch: rsv, op 111, an unused port or data, a read with data, and the words accepted. -/
theorem witness_DecoderFollowsItsBranches :
    (0x0800#16).extractLsb' 11 2 ≠ 0#2 ∧
    ((0xE000#16).extractLsb' 11 2 = 0#2 ∧ (0xE000#16).extractLsb' 13 3 = 7#3) ∧
    ((0xC700#16).extractLsb' 13 3 = 6#3 ∧ (0xC700#16).extractLsb' 8 3 ≠ 0#3) ∧
    ((0x6001#16).extractLsb' 13 3 = 3#3 ∧ (0x6001#16).extractLsb' 0 8 ≠ 0#8) ∧
    ((0x47FF#16).extractLsb' 13 3 = 2#3 ∧ (0x47FF#16).extractLsb' 0 8 ≠ 0#8) ∧
    ((0x07FF#16).extractLsb' 13 3 = 0#3 ∧ (0x07FF#16).extractLsb' 11 2 = 0#2) ∧
    ((0xC000#16).extractLsb' 13 3 = 6#3 ∧ (0xC000#16).extractLsb' 8 3 = 0#3 ∧ (0xC000#16).extractLsb' 0 8 = 0#8) := by decide

theorem witness_StepRunsTheDecodedWord :
    (s0.issue [0x6000#16, 0x2200#16]).driver = 0x6000#16 :: [0x2200#16] ∧ decode 0x6000#16 = .ok .tick := by decide

theorem witness_StepRefusesAndIdles :
    ((s0.issue [0xE000#16]).driver = 0xE000#16 :: [] ∧ decode 0xE000#16 = .error .reservedOp) ∧ s0.driver = [] := by decide

theorem witness_s0_inv : s0.Inv := by constructor <;> decide

/-- The invariant also holds at the end of its ranges. -/
theorem witness_last_dot_inv : ({ s0At 260 340 with sp.count := 8, sp.zeroPossible := true, bank.status := 0xE0#8 } : State).Inv := by
  constructor <;> decide

theorem witness_EveryStepKeepsTheInvariant :
    s0.Inv ∧ after (step (s0.issue [0x6000#16])) (fun t => t == { s0 with timing.dot := 1 }) = true :=
  ⟨witness_s0_inv, by decide⟩

theorem witness_ReadProtocol :
    intercepting.mapper.readAnswer 0x0000#14 = some 0x5A#8 ∧ s0.mapper.readAnswer 0x3FFF#14 = none := by decide

theorem witness_CellOfAnAddress :
    (0x1FFF#14).toNat ≤ 0x1FFF ∧ (0x2000 ≤ (0x2000#14).toNat ∧ (0x2000#14).toNat ≤ 0x3EFF) ∧
    (0x2000 ≤ (0x3EFF#14).toNat ∧ (0x3EFF#14).toNat ≤ 0x3EFF) ∧ 0x3F00 ≤ (0x3F00#14).toNat := by decide

theorem witness_PaletteReadIsMasked : 0x3F00 ≤ (0x3F00#14).toNat ∧ 0x3F00 ≤ (0x3FFF#14).toNat := by decide

theorem witness_MemoryRoundTrip :
    (s0.mapper.writeAnswer (ppuAddr 0x3EFF#16) 0x81#8 = false ∧
      (s0.memWrite 0x3EFF#16 0x81#8).mapper.readAnswer (ppuAddr 0x3EFF#16) = none ∧ (0x3EFF#16).toNat % 0x4000 ≤ 0x3EFF) ∧
    (s0.mapper.writeAnswer (ppuAddr 0x3F10#16) 0x2A#8 = false ∧
      (s0.memWrite 0x3F10#16 0x2A#8).mapper.readAnswer (ppuAddr 0x3F00#16) = none ∧
      0x3F00 ≤ (0x3F10#16).toNat % 0x4000 ∧ 0x3F00 ≤ (0x3F00#16).toNat % 0x4000 ∧
      palIndex (ppuAddr 0x3F00#16) = palIndex (ppuAddr 0x3F10#16)) := by decide

theorem witness_WrScrollResult : s0.bank.w = false ∧ ({ s0 with bank.w := true } : State).bank.w = true := by decide
theorem witness_WrAddrResult : s0.bank.w = false ∧ ({ s0 with bank.w := true } : State).bank.w = true := by decide

/-- `v` for a data access, as the 14-bit address it reaches. -/
def dataAddr (v : CompositeAddr) : Nat := (ppuAddr (busOf v)).toNat

theorem witness_WrDataResult :
    s0.mapper.attached = true ∧ intercepting.mapper.writeAnswer 0x0000#14 0xFF#8 = true ∧
    s0.mapper.writeAnswer 0x1FFF#14 0xFF#8 = false ∧ dataAddr 0x1FFF#15 ≤ 0x1FFF ∧
    (0x2000 ≤ dataAddr 0x2000#15 ∧ dataAddr 0x3EFF#15 ≤ 0x3EFF) ∧ 0x3F00 ≤ dataAddr 0x7F00#15 := by decide

theorem witness_DrawPortsChangeNothing : Instr.rdCtrl ∈ drawPorts ∧ Instr.dbgData ∈ drawPorts := by decide

theorem witness_RdDataResult :
    s0.mapper.attached = true ∧ intercepting.mapper.readAnswer 0x3EFF#14 = some 0x5A#8 ∧
    s0.mapper.readAnswer 0x3F00#14 = none ∧ 0x3F00 ≤ (0x3F00#15).toNat % 0x4000 ∧ (0x3EFF#15).toNat % 0x4000 < 0x3F00 := by decide

theorem witness_ReadBufferDelaysByOneRead :
    s0.mapper.attached = true ∧ ({ s0 with bank.v := 0x2000#15 } : State).bank.v.toNat % 0x4000 < 0x3F00 ∧
    after (exec .rdData { s0 with bank.v := 0x2000#15, mem.nt := [(0, 0x55#8)] })
      (fun t => decide (t.bank.v.toNat % 0x4000 < 0x3F00)) = true := by decide

/-- A mapper attached; without one, an operation and a run that keep rule R305, and the first TICK, which does not. -/
theorem witness_EveryOperationCompletesWithAMapper :
    s0.mapper.attached = true ∧ keepsMapperRule .rdStatus bare = true ∧
    (bare.timing = State.reset.timing ∧ bare.mapper.attached = false) ∧
    (decode 0x2200#16 = .ok .rdStatus ∧ decode 0x6000#16 = .ok .tick) ∧
    runKeepsMapperRule [0x2200#16, 0x6000#16] { bare with timing.scanline := 240 } = true := by decide

/-- A TICK that calls the mapper at a fetch dot, one at a pixel, one of a rendering scanline that makes no call, the
first after reset, and the skip. -/
theorem witness_StuckExactlyWithoutAMapper :
    bare.mapper.attached = false ∧ ({ bare with timing.dot := 337 } : State).TickCallsMapper 337 ∧
    ({ bare with timing.scanline := 239, timing.dot := 256 } : State).TickCallsMapper 256 ∧
    ¬ ({ bare with timing.dot := 260 } : State).TickCallsMapper 260 ∧ bare.Processes 0 ∧
    ({ skipping with mapper.attached := false } : State).Processes 1 ∧
    exec .rdData { s0 with mapper.attached := false } = .fault .missingMapper := by
  refine ⟨rfl, .inl ?_, .inr (.inl ?_), ?_, ?_, ?_, rfl⟩
  · unfold State.RenderingLine; decide
  · unfold State.VisibleLine; decide
  · unfold State.TickCallsMapper State.RenderingLine State.VisibleLine; rintro (h | h | h) <;> revert h <;> decide
  all_goals
    unfold State.Processes State.SkipsDot
    decide

/-- The example of rule R240 needs no mapper: the first TICKs make no call. The fetch of dot 3 (rule R177) does. -/
theorem test_tick_without_a_mapper :
    after (exec .tick bare) (fun t => t.timing.dot == 1 && t.trace == []) = true ∧
    after (exec .tick { bare with timing.dot := 319 }) (fun t => t.timing.dot == 320) = true ∧
    exec .tick { s0At (-1) 3 with mapper.attached := false } = .fault .missingMapper :=
  ⟨by decide, by decide, rfl⟩

/-- The last dot but one of a scanline, the last dot of scanlines 259 and 260, and the skip. -/
theorem witness_TickAdvancesTheRaster :
    (s0At (-1) 339).mapper.attached = true ∧ (s0At (-1) 339).Processes 339 ∧
    ((s0At 259 340).Processes 340 ∧ (s0At 259 340).timing.scanline < 260) ∧
    ((s0At 260 340).Processes 340 ∧ 260 ≤ (s0At 260 340).timing.scanline) ∧ skipping.Processes 1 := by
  unfold State.Processes State.SkipsDot
  decide

theorem witness_OddFrameSkipsDotZero : skipping.SkipsDot ∧ skipping.mapper.attached = true := by
  unfold State.SkipsDot
  decide
theorem witness_TickFrame : s0.mapper.attached = true := by decide

theorem witness_NothingRendersInVblank :
    240 ≤ (s0At 240 1).timing.scanline ∧ ¬ ((s0At 240 1).timing.scanline = 241 ∧ (s0At 240 1).timing.dot = 1) ∧
    240 ≤ (s0At 241 1).timing.scanline := by decide

/-- A short frame and a full one, each at its last TICK but one and at its last. -/
theorem witness_FrameLength :
    (s0.mapper.attached = true ∧ s0.timing.scanline = -1 ∧ s0.timing.dot = 0) ∧
    (s0.issue (List.replicate 89342 0x6000#16)).driver = List.replicate 89342 0x6000#16 ++ [] ∧
    (s0.issue (List.replicate 89341 0x6000#16)).driver = List.replicate 89341 0x6000#16 ++ [] ∧
    (({ s0 with timing.oddFrame := true, bank.mask := 0x10#8 } : State).timing.oddFrame = true ∧
      (({ s0 with timing.oddFrame := true, bank.mask := 0x10#8 } : State).bank.mask.getLsbD 3 ||
        ({ s0 with timing.oddFrame := true, bank.mask := 0x10#8 } : State).bank.mask.getLsbD 4) = true) :=
  ⟨by decide, (List.append_nil _).symm, (List.append_nil _).symm, by decide⟩

theorem witness_PublishedFrameIsFullyDrawn :
    s0.mapper.attached = true ∧ s0.timing.scanline = -1 ∧ s0.timing.dot = 0 ∧ s0.timing.oddFrame = false ∧
    (s0.issue (List.replicate 89342 0x6000#16)).driver = List.replicate 89342 0x6000#16 ++ [] :=
  ⟨by decide, by decide, by decide, by decide, (List.append_nil _).symm⟩

/-- Both events' dots, a dot 1 without an event, a slot that shifts, and one that does not. -/
theorem witness_TickVblankAndPreRenderClear :
    ((s0At 241 1).mapper.attached = true ∧ (s0At 241 1).Processes 1 ∧ (s0At 241 1).timing.scanline = 241) ∧
    ((s0At (-1) 1).Processes 1 ∧ (s0At (-1) 1).timing.scanline = -1) ∧
    (skipping.Processes 1 ∧ skipping.timing.scanline ≠ 241 ∧ skipping.timing.scanline ≠ -1) ∧
    ((hitState 0x1E#8 0#8 257).Processes 257 ∧ (hitState 0x1E#8 0#8 257).RenderingLine ∧
      (hitState 0x1E#8 0#8 257).bank.mask.getLsbD 4 = true ∧ 0 < (hitState 0x1E#8 0#8 257).sp.count ∧
      (hitState 0x1E#8 0#8 257).sp.slot[0].x = 0#8) ∧
    ((hitState 0x1E#8 0#8 258).Processes 258 ∧ ¬ 258 ≤ 257) := by
  refine ⟨?_, ?_, ?_, ?_, ?_⟩ <;> (try unfold State.RenderingLine) <;> unfold State.Processes State.SkipsDot <;> decide

/-- `hitState` with the sprite one column later: its step at dot 1 counts `x` down to 0, so the hit happens. -/
def hitNext : State := { hitState 0x1E#8 0#8 1 with sp.slot := Vector.replicate 8 { slotOf 1#8 0#8 with x := 1#8, lo := 0x80#8 } }

/-- A TICK in which the hit happens, and an evaluation that finds a ninth sprite. -/
theorem witness_TickSpriteFlags :
    hitNext.mapper.attached = true ∧ ¬ hitNext.SkipsDot ∧ ¬ (hitNext.timing.scanline = -1 ∧ hitNext.timing.dot = 1) ∧
    after (exec .tick hitNext) (fun t => t.bank.status == 0x40#8) = true ∧
    ({ s0At 9 320 with mem.oam := oamOf 10#8 } : State).qualifyingEntries.length = 9 := by
  unfold State.SkipsDot
  decide

theorem witness_OneInterruptSource :
    ((s0At 241 1).timing.scanline = 241 ∧ (s0At 241 1).timing.dot = 1 ∧
      ({ s0At 241 1 with bank.ctrl := 0x80#8 } : State).bank.ctrl.getLsbD 7 = true) ∧
    after (exec .tick { s0At 241 1 with bank.ctrl := 0x80#8 }) (fun t => t.timing.nmiPending) = true ∧
    after (exec .ackNmi { s0 with timing.nmiPending := true }) (fun t => !t.timing.nmiPending) = true := by decide

/-- Each clause of the two increments, at the ends of the coarse and fine ranges. -/
theorem witness_IncXRule :
    (s0.bank.mask.getLsbD 3 || s0.bank.mask.getLsbD 4) = false ∧
    ((shownAt 0 8).bank.mask.getLsbD 3 || (shownAt 0 8).bank.mask.getLsbD 4) = true ∧
    (coarseX 0x041F#15).toNat = 31 ∧ (coarseX 0x001E#15).toNat ≠ 31 := by decide

theorem witness_IncYRule :
    (s0.bank.mask.getLsbD 3 || s0.bank.mask.getLsbD 4) = false ∧
    ((shownAt 0 256).bank.mask.getLsbD 3 || (shownAt 0 256).bank.mask.getLsbD 4) = true ∧
    (fineY 0x6000#15).toNat < 7 ∧ (fineY 0x73A0#15).toNat = 7 ∧ (coarseY 0x73A0#15).toNat = 29 ∧
    (coarseY 0x73E0#15).toNat = 31 ∧ ((coarseY 0x73C0#15).toNat ≠ 29 ∧ (coarseY 0x73C0#15).toNat ≠ 31) := by decide

/-- A position for each clause: no enable, dot 256, dots 8 and 336, dot 257, dots 280 and 304, and dot 300 of
scanline 0, where nothing moves. -/
theorem witness_TickMovesVOnSchedule :
    (shownAt 239 256).mapper.attached = true ∧
    ¬ ((s0At 0 8).RenderingLine ∧ ((s0At 0 8).bank.mask.getLsbD 3 || (s0At 0 8).bank.mask.getLsbD 4) = true) ∧
    ((shownAt 239 256).RenderingLine ∧
      ((shownAt 239 256).bank.mask.getLsbD 3 || (shownAt 239 256).bank.mask.getLsbD 4) = true ∧
      (shownAt 239 256).timing.dot = 256) ∧
    ((shownAt (-1) 336).RenderingLine ∧ (shownAt (-1) 336).timing.dot % 8 = 0 ∧ 321 ≤ (shownAt (-1) 336).timing.dot ∧
      (shownAt (-1) 336).timing.dot ≤ 337) ∧
    ((shownAt 0 8).timing.dot % 8 = 0 ∧ 2 ≤ (shownAt 0 8).timing.dot ∧ (shownAt 0 8).timing.dot < 256) ∧
    (shownAt 0 257).timing.dot = 257 ∧
    ((shownAt (-1) 280).timing.scanline = -1 ∧ 280 ≤ (shownAt (-1) 280).timing.dot ∧ (shownAt (-1) 304).timing.dot ≤ 304) ∧
    ((shownAt 0 300).RenderingLine ∧ ¬ ((shownAt 0 300).timing.dot % 8 = 0 ∧
        (2 ≤ (shownAt 0 300).timing.dot ∧ (shownAt 0 300).timing.dot ≤ 256 ∨
          321 ≤ (shownAt 0 300).timing.dot ∧ (shownAt 0 300).timing.dot ≤ 337)) ∧
      (shownAt 0 300).timing.dot ≠ 257 ∧
      ¬ ((shownAt 0 300).timing.scanline = -1 ∧ 280 ≤ (shownAt 0 300).timing.dot ∧ (shownAt 0 300).timing.dot ≤ 304)) := by
  unfold State.RenderingLine
  decide

theorem witness_ShiftAndLoadRules : 0 < 16 ∧ 7 < 16 ∧ 8 < 16 ∧ 15 < 16 := by decide

/-- The raster position is on a rendering scanline, and no skip happens there. -/
theorem witness_rendering (line : Int) (dot : Nat) (h : -1 ≤ line ∧ line ≤ 239) (hd : dot ≠ 0) :
    (shownAt line dot).mapper.attached = true ∧ (shownAt line dot).RenderingLine ∧ ¬ (shownAt line dot).SkipsDot :=
  ⟨rfl, h, fun k => hd k.2.1⟩

/-- Phases 0, 2, 4, 6 and 7 at dots 257, 3, 325, 327 and 336, and dot 258, which does not qualify. -/
theorem witness_TickRunsTheFetchSequence :
    ((2 ≤ 257 ∧ 257 ≤ 257) ∧ (257 - 1) % 8 = 0) ∧ ((2 ≤ 3 ∧ 3 ≤ 257) ∧ (3 - 1) % 8 = 2) ∧
    ((321 ≤ 325 ∧ 325 ≤ 337) ∧ (325 - 1) % 8 = 4) ∧ ((321 ≤ 327 ∧ 327 ≤ 337) ∧ (327 - 1) % 8 = 6) ∧
    ((321 ≤ 336 ∧ 336 ≤ 337) ∧ (336 - 1) % 8 = 7) ∧ ¬ ((2 ≤ 258 ∧ 258 ≤ 257) ∨ (321 ≤ 258 ∧ 258 ≤ 337)) ∧
    ((shownAt 239 257).mapper.attached = true ∧ (shownAt 239 257).RenderingLine ∧ ¬ (shownAt 239 257).SkipsDot) :=
  ⟨by decide, by decide, by decide, by decide, by decide, by decide, witness_rendering 239 257 (by decide) (by decide)⟩

/-- A full list with a ninth entry, and an empty one. -/
theorem witness_EvaluationListsTheFirstEight :
    (s0At 9 320).mapper.attached = true ∧ (s0At 9 320).RenderingLine ∧ (s0At 9 320).timing.dot = 320 ∧
    ({ s0At 9 320 with mem.oam := oamOf 10#8 } : State).qualifyingEntries = [0, 1, 2, 3, 4, 5, 6, 7, 8] ∧
    ({ s0At 9 320 with mem.oam := oamEmpty } : State).qualifyingEntries = [] := by
  unfold State.RenderingLine
  decide

/-- Two valid slots, one of them flipped, and invalid ones. -/
def fetching : State :=
  { s0At 239 340 with
    sp := { slot := (Vector.replicate 8 (slotOf 1#8 0#8)).set 1 (slotOf 1#8 0x40#8), count := 2, zeroPossible := false } }

theorem witness_SpriteFetchLoadsThePlanes :
    fetching.mapper.attached = true ∧ fetching.RenderingLine ∧ fetching.timing.dot = 340 ∧
    (0 < fetching.sp.count ∧ fetching.sp.slot[0].attr.getLsbD 6 = false) ∧
    (1 < fetching.sp.count ∧ fetching.sp.slot[1].attr.getLsbD 6 = true) ∧ fetching.sp.count ≤ 2 :=
  ⟨rfl, ⟨by decide, by decide⟩, rfl, by decide, by decide, by decide⟩

/-- The mapper intercepts the second plane of slot 1, the fifth read of the dot: rule R84, and the flip of R202. -/
theorem test_tick_intercepted_plane :
    after (exec .tick { fetching with mapper.readAnswers := List.replicate 4 none ++ [some 0x01#8] })
      (fun t => t.sp.slot[1].hi == 0x80#8 && t.sp.slot[2] == fetching.sp.slot[2] && t.timing.scanline == 240) = true := by decide

/-- Both heights; a row of 7 and one of 15. -/
theorem witness_SpriteFetchAddresses :
    ((s0At 6 340).bank.ctrl.getLsbD 5 = false ∧ spriteRow 6 (slotOf 0xFF#8 0#8) = 7) ∧
    (({ s0At 14 340 with bank.ctrl := 0x20#8 } : State).bank.ctrl.getLsbD 5 = true ∧
      spriteRow 14 (slotOf 0x42#8 0x80#8) = 15) := by decide

/-- The first and the last dot of the step, the skip, and dots without a step. -/
theorem witness_SpriteShiftAndDelay :
    ((hitState 0x1E#8 0#8 257).mapper.attached = true ∧ (hitState 0x1E#8 0#8 257).RenderingLine ∧
      (hitState 0x1E#8 0#8 257).Processes 257) ∧
    ((hitState 0x1E#8 0#8 1).Processes 1 ∧ (hitState 0x1E#8 0#8 1).bank.mask.getLsbD 4 = true ∧
      0 < (hitState 0x1E#8 0#8 1).sp.count ∧ (hitState 0x1E#8 0#8 1).sp.slot[0].x = 0#8) ∧
    (0 < fetching.sp.count ∧ fetching.sp.slot[0].x ≠ 0#8) ∧
    (skipping.RenderingLine ∧ skipping.Processes 1 ∧ (skipping.bank.mask.getLsbD 4 = false ∨ skipping.sp.count ≤ 0)) ∧
    ((s0At 0 0).Processes 0 ∧ (s0At 0 319).Processes 319 ∧ (s0At 0 339).Processes 339) := by
  refine ⟨?_, ?_, ?_, ?_, ?_⟩ <;> (try unfold State.RenderingLine) <;> (try unfold State.Processes State.SkipsDot) <;> decide

/-- The hit machine with another slot 7, which is not valid. -/
def hitState' : State :=
  { hitState 0x1E#8 0#8 10 with
    sp.slot := (hitState 0x1E#8 0#8 10).sp.slot.set 7 { slotOf 2#8 0#8 with lo := 0xFF#8, x := 0#8 } }

/-- `fetching` with another shifter in a valid slot: before the sprite fetch nothing shows it. -/
def fetching' : State := { fetching with sp.slot := fetching.sp.slot.set 1 { fetching.sp.slot[1] with lo := 0xFF#8 } }

theorem witness_InvalidSlotsAreUnobservable :
    ((hitState 0x1E#8 0#8 10).SameButUnseenSlots hitState' ∧ hitState' ≠ hitState 0x1E#8 0#8 10) ∧
    (fetching.SameButUnseenSlots fetching' ∧ fetching' ≠ fetching) ∧
    after (exec .tick (hitState 0x1E#8 0#8 10)) (fun _ => true) = true ∧
    after (exec .tick fetching) (fun _ => true) = true ∧
    (exec .tick { fetching with mapper.attached := false } = .fault .missingMapper) := by
  refine ⟨⟨⟨rfl, rfl, rfl, ?_⟩, by decide⟩, ⟨⟨rfl, rfl, rfl, ?_⟩, by decide⟩, by decide, by decide, rfl⟩ <;>
    unfold State.BeforeSpriteFetch State.RenderingLine <;> decide

theorem witness_LayerPixels :
    ((shownAt 0 1).bank.mask.getLsbD 3 = true ∧ (shownAt 0 1).bank.mask.getLsbD 1 = true) ∧
    (({ s0At 0 9 with bank.mask := 0x18#8 } : State).bank.mask.getLsbD 1 = false ∧ 9 ≤ (s0At 0 9).timing.dot) ∧
    (({ s0At 0 8 with bank.mask := 0x18#8 } : State).bank.mask.getLsbD 1 = false ∧
      ({ s0At 0 8 with bank.mask := 0x18#8 } : State).bank.mask.getLsbD 2 = false ∧ (s0At 0 8).timing.dot < 9) ∧
    (s0At 0 9).bank.mask.getLsbD 3 = false ∧
    ((hitState 0x1E#8 0#8 1).bank.mask.getLsbD 4 = true ∧ (hitState 0x1E#8 0#8 1).bank.mask.getLsbD 2 = true ∧
      0 < (hitState 0x1E#8 0#8 1).sp.count ∧ (hitState 0x1E#8 0#8 1).sp.slot[0].x = 0#8 ∧
      ((hitState 0x1E#8 0#8 1).sp.slot[0].hi.getLsbD 7 || (hitState 0x1E#8 0#8 1).sp.slot[0].lo.getLsbD 7) = true) ∧
    (∀ j : Fin 8, j.val < (shownAt 0 1).sp.count → (shownAt 0 1).sp.slot[j].x ≠ 0#8) := by decide

/-- The five rows of the table, each with pixels that select it. -/
theorem witness_CompositionTable :
    (BgPixel.transparent.pixel = 0#2 ∧ FgPixel.transparent.pixel = 0#2) ∧ (fgOf 1#2 0#2 true).pixel ≠ 0#2 ∧
    (⟨3#2, 3#2⟩ : BgPixel).pixel ≠ 0#2 ∧ (fgOf 3#2 3#2 true).front = true ∧ (fgOf 3#2 3#2 false).front = false := by decide

theorem witness_TickDrawsOnePixel :
    ((shownAt 239 256).mapper.attached = true ∧ ¬ (shownAt 239 256).SkipsDot ∧ (shownAt 239 256).VisibleLine ∧
      1 ≤ (shownAt 239 256).timing.dot ∧ (shownAt 239 256).timing.dot ≤ 256) ∧
    ((shownAt 0 1).VisibleLine ∧ (shownAt 0 1).timing.dot = 1) ∧
    ¬ ((shownAt 0 257).VisibleLine ∧ 1 ≤ (shownAt 0 257).timing.dot ∧ (shownAt 0 257).timing.dot ≤ 256) := by
  unfold State.SkipsDot State.VisibleLine
  decide

theorem witness_TickMapperCalls :
    ((shownAt (-1) 260).mapper.attached = true ∧ ¬ (shownAt (-1) 260).SkipsDot ∧ (shownAt (-1) 260).RenderingLine ∧
      (shownAt (-1) 260).timing.dot = 260 ∧
      ((shownAt (-1) 260).bank.mask.getLsbD 3 || (shownAt (-1) 260).bank.mask.getLsbD 4) = true) ∧
    ¬ ((s0At 239 260).RenderingLine ∧ (s0At 239 260).timing.dot = 260 ∧
      ((s0At 239 260).bank.mask.getLsbD 3 || (s0At 239 260).bank.mask.getLsbD 4) = true) ∧
    (shownAt (-1) 260).timing.dot ≠ 340 := by
  unfold State.RenderingLine State.SkipsDot
  decide

/-- The addresses and the order of the reads, from rules R174, R197, R199, R169 and R228: the dummy fetches of dots 338
and 340, two sprites of rows 7 and 15, a plane with its pixel, and none at dot 1 of the pre-render scanline. -/
theorem test_tick_reads :
    ({ s0At 0 338 with bank.v := 0x3123#15 } : State).tickReads = [0x2123#16] ∧
    ({ fetching with timing.scanline := 6 } : State).tickReads = [0x2000#16, 0x0017#16, 0x001F#16, 0x0017#16, 0x001F#16] ∧
    ({ s0At 239 7 with bank.ctrl := 0x10#8, bank.v := 0x5000#15, bg.nextId := 0x02#8 } : State).tickReads =
      [0x102D#16, 0x3F00#16] ∧
    (s0At (-1) 1).tickReads = [] ∧ (s0At 240 3).tickReads = [] := by decide

theorem witness_OnlyTickAndResetMoveTheRaster :
    after (exec .ackFrame { s0 with timing.frameComplete := true }) (fun t => !t.timing.frameComplete) = true ∧
    Instr.ackFrame ≠ .tick ∧ Instr.ackFrame ≠ .reset := by decide

theorem witness_OnlyPortWritesChangeMemory :
    after (exec .tick (s0At 240 0)) (fun t => t.timing.dot == 1) = true ∧ (∀ d, Instr.tick ≠ .wrOamdata d) ∧
    (∀ d, Instr.tick ≠ .wrData d) :=
  ⟨by decide, fun _ h => (nomatch h), fun _ h => (nomatch h)⟩

/-- The wrap publishes a drawn pixel: the front buffer changes. -/
theorem witness_FrontChangesOnlyAtTheWrap :
    (s0At 260 340).Inv ∧
    after (exec .tick { s0At 260 340 with back.pixels := [(0, 0x16#6)] })
      (fun t => t.front != (s0At 260 340).front && t.front.pixels == [(0, 0x16#6)]) = true ∧
    after (exec .tick { s0At 0 1 with mem.pal := [(0, 0x0F#8)] }) (fun t => t.back.pixels == [(0, 0x0F#6)]) = true :=
  ⟨by constructor <;> decide, by decide, by decide⟩

/-- Each hidden register changes in an operation that the statement names. -/
theorem witness_WritersOfHiddenRegisters :
    after (exec (.wrScroll 0x2B#8) s0)
      (fun t => t.bank.fineX != s0.bank.fineX && t.bank.w != s0.bank.w && t.bank.t != s0.bank.t) = true ∧
    after (exec (.wrAddr 0x2B#8) { s0 with bank.w := true }) (fun t => t.bank.v != s0.bank.v && !t.bank.w) = true ∧
    after (exec .rdOamdata s0) (fun t => t.bank.oamAddr != s0.bank.oamAddr) = true ∧
    after (exec .rdData { s0 with bank.v := 0x3F00#15, mem.pal := [(0, 0x0F#8)] })
      (fun t => t.bank.readBuffer != s0.bank.readBuffer && t.bank.lastDataOut != s0.bank.lastDataOut) = true ∧
    after (exec .tick (hitState 0x1E#8 0#8 8))
      (fun t => t.bank.v != s0.bank.v && t.bg != (hitState 0x1E#8 0#8 8).bg && t.sp != (hitState 0x1E#8 0#8 8).sp) = true ∧
    Instr.rdData ≠ .reset ∧ Instr.tick ≠ .reset := by decide

/-- A run of two words, one that is refused and one that is stuck. -/
theorem witness_ObservationOfARun :
    (decode 0x2200#16 = .ok .rdStatus ∧ after (exec .rdStatus { s0 with driver := [0x8000#16] }) (fun _ => true) = true ∧
      (observe s0 [0x8000#16]).isSome = true) ∧
    (decode 0xE000#16 = .error .reservedOp ∧ observe s0 [0x8000#16, 0xE000#16] = none) ∧
    (decode 0x0700#16 = .ok (.wrData 0x00#8) ∧ exec (.wrData 0x00#8) { s0 with mapper.attached := false } = .fault .missingMapper) :=
  ⟨by decide, by decide, by decide, rfl⟩

/-- Rule R287's three items: the status byte, the call of a data write, and the outputs after each operation, the
published frame among them. -/
theorem test_observe :
    observe { s0At 260 340 with timing.nmiPending := true, bank.status := 0x80#8, back.pixels := [(0, 0x16#6)] }
        [0x2200#16, 0x6000#16, 0x07FF#16, 0xA000#16] =
      some { bytes := [0x80#8]
             calls := [.interceptWrite 0x0000#14 0xFF#8, .onLatchUpdate 0x0000#14]
             outputs := [⟨true, false, State.reset.front⟩] ++
               [⟨true, true, { State.reset.back with pixels := [(0, 0x16#6)] }⟩,
                ⟨true, true, { State.reset.back with pixels := [(0, 0x16#6)] }⟩,
                ⟨false, true, { State.reset.back with pixels := [(0, 0x16#6)] }⟩] } := by decide

/-- A mapper that declines a whole query's reads. -/
def querying : State := { s0 with mapper := mapperM0 194 }

theorem witness_TileQueriesChangeNothing : (∃ q t, patternTile 1#1 0xFF#8 7#3 querying = .next (q, t)) ∧
    (∃ q t, nametableTile 3#2 31#5 29#5 querying = .next (q, t)) ∧ (∃ q t, spriteTile 63#6 querying = .next (q, t)) :=
  ⟨⟨_, _, rfl⟩, ⟨_, _, rfl⟩, ⟨_, _, rfl⟩⟩

theorem witness_TileQueryColours :
    querying.mapper.attached = true ∧ querying.mapper.DeclinesReads 194 ∧ (29#5).toNat < 30 ∧ 7 < 8 :=
  ⟨rfl, ⟨[], (List.append_nil _).symm⟩, by decide, by decide⟩

end Sys2Proof.Tests
end

section
/-! PROOFS. A word is read back as the fields it was built from, the decoder inverts the encoder, and a step is
`exec` of the operation that the oldest word decodes to. -/

namespace Sys2Proof

@[simp] theorem HostClass.ofBits_bits (c : HostClass) : HostClass.ofBits c.bits = c := by
  cases c <;> rfl

@[simp] theorem Port.ofBits_bits (p : Port) : Port.ofBits p.bits = p := by
  cases p <;> rfl

/-- The four fields of a word do not overlap (rule R90). -/
@[simp] theorem HostFields.ofWord_toWord (f : HostFields) : HostFields.ofWord f.toWord = f := by
  obtain ⟨op, rsv, port, data⟩ := f
  simp only [HostFields.ofWord, HostFields.toWord, HostFields.mk.injEq]
  refine ⟨?op, ?rsv, ?port, ?data⟩
  case op =>
    rw [BitVec.extractLsb'_append_eq_of_le (by decide), BitVec.extractLsb'_append_eq_of_le (by decide)]
    exact BitVec.extractLsb'_append_eq_left
  case rsv =>
    rw [BitVec.extractLsb'_append_eq_of_le (by decide), BitVec.extractLsb'_append_eq_of_le (by decide)]
    exact BitVec.extractLsb'_append_eq_right
  case port =>
    rw [BitVec.extractLsb'_append_eq_of_le (by decide)]
    exact BitVec.extractLsb'_append_eq_right
  case data => exact BitVec.extractLsb'_append_eq_right

/-- On a word built from fields, the decoder is the decoder on those fields. -/
@[simp] theorem decode_toWord (f : HostFields) : decode f.toWord = decodeFields f := by
  rw [decode, HostFields.ofWord_toWord]

/-- A write's fields decode to the write of that port with that byte (rules R94, R96). -/
@[simp] theorem decodeFields_wr (p : Port) (d : Byte) : decodeFields (portFields .wr p d) = .ok (writeOf p d) := by
  simp [decodeFields, portFields]

/-- A read's fields decode to the read of that port. -/
@[simp] theorem decodeFields_rd (p : Port) : decodeFields (portFields .rd p 0#8) = .ok (readOf p) := by
  simp [decodeFields, portFields, requireNoData]

/-- A debug read's fields decode to the debug read of that port. -/
@[simp] theorem decodeFields_dbg (p : Port) : decodeFields (portFields .dbg p 0#8) = .ok (debugOf p) := by
  simp [decodeFields, portFields, requireNoData]

@[simp] theorem decodeFields_tick : decodeFields (controlFields .tick) = .ok .tick := rfl
@[simp] theorem decodeFields_reset : decodeFields (controlFields .reset) = .ok .reset := rfl
@[simp] theorem decodeFields_ackNmi : decodeFields (controlFields .ackNmi) = .ok .ackNmi := rfl
@[simp] theorem decodeFields_ackFrame : decodeFields (controlFields .ackFrame) = .ok .ackFrame := rfl

/-- The decoder reads every operation back from its own word: each row of rule R96 is one of the classes above. -/
@[simp] theorem decode_encode (i : Instr) : decode (encode i) = .ok i := by
  rw [encode, decode_toWord]
  cases i <;> simp only [Instr.fields, decodeFields_wr, decodeFields_rd, decodeFields_dbg, decodeFields_tick,
    decodeFields_reset, decodeFields_ackNmi, decodeFields_ackFrame, writeOf, readOf, debugOf]

end Sys2Proof

namespace Sys2Proof.Machine

/-- The oldest word leaves the queue, and nothing else moves. -/
theorem State.nextWord_of_driver_cons {s : State} {w : HostWord} {rest : List HostWord} (hw : s.driver = w :: rest) :
    s.nextWord = some (w, { s with driver := rest }) := by
  simp only [State.nextWord, hw]

/-- An accepted word's step is `exec` of its operation on the machine without the word (rules R8, R77). -/
theorem step_of_decode_ok {s : State} {w : HostWord} {rest : List HostWord} {i : Instr}
    (hw : s.driver = w :: rest) (hi : decode w = .ok i) : step s = exec i { s with driver := rest } := by
  simp only [step, State.nextWord_of_driver_cons hw, hi]

/-- The word `withFetchWord` issues is the oldest one, and it is the whole word. -/
@[simp] theorem State.driver_withFetchWord (s : State) (w : HostWord) :
    (s.withFetchWord 16 w.toNat).driver = w :: s.driver := by
  simp [State.withFetchWord]

/-- The step on the word of an operation, issued next, is `exec` of that operation. -/
theorem step_withFetchWord_encode (s : State) (i : Instr) :
    step (s.withFetchWord 16 (encode i).toNat) = exec i s :=
  step_of_decode_ok (State.driver_withFetchWord s (encode i)) (decode_encode i)

/-- Settles O4: a step is `exec` of what the oldest word decodes to, and the decoder inverts the encoder. -/
theorem stepRunsTheDecodedWord : Obligations.StepRunsTheDecodedWord :=
  ⟨fun _ _ _ _ hw hi => step_of_decode_ok hw hi, step_withFetchWord_encode⟩

end Sys2Proof.Machine
end

section
/-! PROOFS. What every host operation does to the register bank, the memories and the rest of the block, said once;
the invariant of the machine; and the frame and writer rules of the state. -/

namespace Sys2Proof.Machine

/-! ### The parts of the invariant, one per part of the state -/

/-- The raster is in range (rules R39, R40). -/
structure Timing.InRange (tm : Timing) : Prop where
  scanline_ge : -1 ≤ tm.scanline
  scanline_le : tm.scanline ≤ 260
  dot_le : tm.dot ≤ 340

/-- The visible list's count is in range, and sprite zero is possible only in a list that is not empty (rules R36,
R194). -/
structure Sprites.ListWf (sp : Sprites) : Prop where
  count_le : sp.count ≤ 8
  zero_listed : sp.zeroPossible = true → 1 ≤ sp.count

/-- The invariant, part by part. -/
theorem State.inv_iff {s : State} :
    s.Inv ↔ s.timing.InRange ∧ s.bank.status &&& 0x1F#8 = 0#8 ∧ s.sp.ListWf ∧ s.mem.Wf ∧ s.back.wf ∧ s.front.wf :=
  ⟨fun h => ⟨{ h with }, h.status_low, { h with }, ⟨h.oam_wf, h.nt_wf, h.pal_wf, h.pt_wf⟩, h.back_wf, h.front_wf⟩,
    fun ⟨ht, hst, hsp, hm, hb, hf⟩ =>
      { ht, hsp with
        status_low := hst, oam_wf := hm.oam, nt_wf := hm.nt, pal_wf := hm.pal, pt_wf := hm.pt, back_wf := hb
        front_wf := hf }⟩

theorem Timing.reset_inRange : Timing.reset.InRange := by constructor <;> decide

theorem RegisterBank.reset_status_low : RegisterBank.reset.status &&& 0x1F#8 = 0#8 := rfl

theorem Sprites.reset_listWf : Sprites.reset.ListWf := by constructor <;> decide

/-- A memory or frame buffer with nothing written is in canonical form. -/
theorem Cells.wf_nil {α : Type} (size : Nat) : Cells.wf size ([] : List (Nat × α)) :=
  ⟨List.Pairwise.nil, fun _ hp => (nomatch hp)⟩

/-- Settles O6: no memory or frame buffer has been written, and every counter starts in range. -/
theorem resetMeetsTheInvariant : Obligations.ResetMeetsTheInvariant :=
  State.inv_iff.2 ⟨Timing.reset_inRange, RegisterBank.reset_status_low, Sprites.reset_listWf,
    ⟨Cells.wf_nil _, Cells.wf_nil _, Cells.wf_nil _, Cells.wf_nil _⟩, Cells.wf_nil _, Cells.wf_nil _⟩

/-! ### STATUS[4:0]: every operation on the flags leaves it (rule R23) -/

/-- A mask without a bit of STATUS[4:0] sets none. -/
theorem or_status_low (st : Byte) {m : Byte} (hm : m &&& 0x1F#8 = 0#8) : (st ||| m) &&& 0x1F#8 = st &&& 0x1F#8 := by
  rw [BitVec.and_or_distrib_right, hm, BitVec.or_zero]

@[simp] theorem setSpOverflow_low (st : Byte) : setSpOverflow st &&& 0x1F#8 = st &&& 0x1F#8 := or_status_low st rfl
@[simp] theorem setSpZeroHit_low (st : Byte) : setSpZeroHit st &&& 0x1F#8 = st &&& 0x1F#8 := or_status_low st rfl
@[simp] theorem setVblank_low (st : Byte) : setVblank st &&& 0x1F#8 = st &&& 0x1F#8 := or_status_low st rfl

@[simp] theorem clearVblank_low (st : Byte) : clearVblank st &&& 0x1F#8 = st &&& 0x1F#8 := by
  simp [clearVblank, BitVec.and_assoc]

@[simp] theorem clearStatusFlags_low (st : Byte) : clearStatusFlags st &&& 0x1F#8 = st &&& 0x1F#8 := by
  simp [clearStatusFlags, BitVec.and_assoc]

theorem spriteStep_status_low (s : State) : s.spriteStep.bank.status &&& 0x1F#8 = s.bank.status &&& 0x1F#8 := by
  rcases (spriteStep_kept s).status with h | h <;> simp [h]

theorem compositorStep_status_low (s : State) :
    s.compositorStep.bank.status &&& 0x1F#8 = s.bank.status &&& 0x1F#8 := by
  rcases (compositorStep_kept s).status with h | h <;> simp [h]

theorem timingEvents_status_low (s : State) :
    s.timingEvents.bank.status &&& 0x1F#8 = s.bank.status &&& 0x1F#8 := by
  rw [timingEvents_status]
  repeat' split
  all_goals simp

/-- A TICK leaves STATUS[4:0]: each of its steps does. -/
theorem tick_status_low (s : State) : s.tick.bank.status &&& 0x1F#8 = s.bank.status &&& 0x1F#8 := by
  rw [tick_eq, (advance_kept _).bank, timingEvents_status_low, State.dotWork, compositorStep_status_low,
    spriteStep_status_low, (backgroundStep_kept _).status, oddFrameSkip_eq]

/-! ### The invariant through a TICK -/

theorem oddFrameSkip_inv {s : State} (h : s.Inv) : s.oddFrameSkip.Inv := by
  rw [oddFrameSkip_eq]
  refine { h with dot_le := ?_ }
  dsimp only
  split
  · decide
  · exact h.dot_le

theorem backgroundStep_inv {s : State} (h : s.Inv) : s.backgroundStep.Inv := by
  have k := backgroundStep_kept s
  rw [State.inv_iff, k.timing, k.status, k.sp, k.mem, k.back, k.front]
  exact State.inv_iff.1 h

/-- A scan lists at most eight entries, and lists entry 0 only as one of them (rules R193, R194). -/
theorem scan_listWf (s : State) : s.scan.sp.ListWf := by
  have r := scan_whole s
  refine ⟨by rw [r.count]; omega, fun hz => ?_⟩
  rw [r.zeroPossible] at hz
  have hmem : 0 ∈ entryNumbers.filter s.entryQualifies := List.mem_of_mem_take (by simpa [Sprites.clear] using hz)
  have hlen := List.length_pos_of_mem hmem
  rw [r.count]
  omega

theorem spriteStep_listWf {s : State} (h : s.sp.ListWf) : s.spriteStep.sp.ListWf := by
  rcases spriteStep_list s with ⟨hc, hz⟩ | hs
  · exact ⟨hc ▸ h.count_le, hc ▸ hz ▸ h.zero_listed⟩
  · exact hs ▸ scan_listWf s

theorem spriteStep_inv {s : State} (h : s.Inv) : s.spriteStep.Inv := by
  have k := spriteStep_kept s
  obtain ⟨ht, hst, hsp, hframes⟩ := State.inv_iff.1 h
  rw [State.inv_iff, k.timing, spriteStep_status_low, k.mem, k.back, k.front]
  exact ⟨ht, hst, spriteStep_listWf hsp, hframes⟩

/-- The pixel that the compositor writes is inside the raster (rules R220, R229). -/
theorem compositorStep_back_wf {s : State} (h : s.back.wf) : s.compositorStep.back.wf := by
  rw [compositorStep_eq]
  split
  next hw =>
    simp only [State.inCompositorWindow, Bool.and_eq_true, decide_eq_true_eq] at hw
    obtain ⟨⟨⟨hge, hle⟩, -⟩, -⟩ := hw
    dsimp only
    split
    · exact Frame.wf_write _ h (by omega) (by omega)
    · exact h
  next => exact h

theorem compositorStep_inv {s : State} (h : s.Inv) : s.compositorStep.Inv := by
  have k := compositorStep_kept s
  obtain ⟨ht, hst, hsp, hm, hb, hf⟩ := State.inv_iff.1 h
  rw [State.inv_iff, k.timing, compositorStep_status_low, k.sp, k.mem, k.front]
  exact ⟨ht, hst, hsp, hm, compositorStep_back_wf hb, hf⟩

theorem timingEvents_inv {s : State} (h : s.Inv) : s.timingEvents.Inv := by
  have k := timingEvents_kept s
  obtain ⟨ht, hst, hsp, hm, hframes⟩ := State.inv_iff.1 h
  rw [State.inv_iff, k.raster, timingEvents_status_low, k.mem, k.back, k.front]
  exact ⟨{ ht with }, hst, ⟨k.count ▸ hsp.count_le, k.count ▸ k.zeroPossible ▸ hsp.zero_listed⟩, hm, hframes⟩

/-- The advance stays in the raster, and publishes a buffer in canonical form (rules R246 to R248). -/
theorem advance_inv {s : State} (h : s.Inv) : s.advance.Inv := by
  have hge := h.scanline_ge
  rw [advance_eq]
  split
  next hd => exact { h with dot_le := hd }
  next =>
    split
    next hl =>
      exact { h with dot_le := Nat.zero_le _, scanline_ge := by dsimp only; omega, scanline_le := by dsimp only; omega }
    next =>
      exact { h with
        dot_le := Nat.zero_le _, scanline_ge := Int.le_refl _, scanline_le := (by decide : (-1 : Int) ≤ 260)
        front_wf := h.back_wf }

theorem tick_inv {s : State} (h : s.Inv) : s.tick.Inv :=
  advance_inv (timingEvents_inv (compositorStep_inv (spriteStep_inv (backgroundStep_inv (oddFrameSkip_inv h)))))

/-! ### What every operation does to the memories, the register bank and the rest -/

/-- The register bank after an operation, port by port. -/
def State.bankAfter (s : State) : Instr → RegisterBank
  | .wrCtrl d => { s.bank with ctrl := d, t := ctrlIntoT s.bank.t d }
  | .wrMask d => { s.bank with mask := d }
  | .wrOamaddr d => { s.bank with oamAddr := d }
  | .wrOamdata _ | .rdOamdata => { s.bank with oamAddr := s.bank.oamAddr + 1#8 }
  | .wrScroll d =>
    { s.bank with
      fineX := if s.bank.w then s.bank.fineX else scrollFine d
      t := if s.bank.w then setCoarseY (setFineY s.bank.t (scrollFine d)) (scrollCoarse d)
        else setCoarseX s.bank.t (scrollCoarse d)
      w := !s.bank.w }
  | .wrAddr d =>
    { s.bank with
      t := if s.bank.w then addrLow s.bank.t d else addrHigh s.bank.t d
      v := if s.bank.w then addrLow s.bank.t d else s.bank.v
      w := !s.bank.w }
  | .wrData _ => { s.bank with v := s.bank.v + stride s.bank.ctrl }
  | .rdStatus => { s.bank with status := clearVblank s.bank.status, w := false }
  | .rdData =>
    { s.bank with
      readBuffer := s.readValue (ppuAddr (busOf s.bank.v))
      lastDataOut := dataResult s (s.readValue (ppuAddr (busOf s.bank.v)))
      v := s.bank.v + stride s.bank.ctrl }
  | .tick => s.tick.bank
  | .reset => RegisterBank.reset
  | _ => s.bank

/-- WR_SCROLL changes only the register bank (rule R118). -/
theorem effectOf_wrScroll (d : Byte) (s : State) :
    effectOf (.wrScroll d) s = { s with bank := s.bankAfter (.wrScroll d) } := by
  cases hw : s.bank.w <;> simp [effectOf, hw, scrollFirst, scrollSecond, State.bankAfter]

/-- WR_ADDR changes only the register bank (rule R119). -/
theorem effectOf_wrAddr (d : Byte) (s : State) :
    effectOf (.wrAddr d) s = { s with bank := s.bankAfter (.wrAddr d) } := by
  cases hw : s.bank.w <;> simp [effectOf, hw, addrFirst, addrSecond, State.bankAfter]

theorem effectOf_bank (i : Instr) (s : State) : (effectOf i s).bank = s.bankAfter i := by
  cases i
  case wrScroll d => rw [effectOf_wrScroll]
  case wrAddr d => rw [effectOf_wrAddr]
  case rdData => rw [effectOf, readDataPort_eq]; rfl
  all_goals rfl

/-- The memories after an operation (rules R117, R120). -/
def State.memAfter (s : State) : Instr → Memories
  | .wrOamdata d => { s.mem with oam := s.mem.oam.write s.bank.oamAddr.toNat d }
  | .wrData d => (s.memWrite (busOf s.bank.v) d).mem
  | _ => s.mem

theorem effectOf_mem (i : Instr) (s : State) : (effectOf i s).mem = s.memAfter i := by
  cases i
  case wrScroll d => rw [effectOf_wrScroll]; rfl
  case wrAddr d => rw [effectOf_wrAddr]; rfl
  case rdData => rw [effectOf, readDataPort_eq]; rfl
  case tick => exact (tick_kept s).mem
  all_goals rfl

/-- What every operation but TICK and RESET keeps: the raster, the pipelines and the frame buffers. -/
structure PortKept (s t : State) : Prop where
  bg : t.bg = s.bg
  sp : t.sp = s.sp
  scanline : t.timing.scanline = s.timing.scanline
  dot : t.timing.dot = s.timing.dot
  oddFrame : t.timing.oddFrame = s.timing.oddFrame
  back : t.back = s.back
  front : t.front = s.front

theorem effectOf_portKept {i : Instr} (ht : i ≠ .tick) (hr : i ≠ .reset) (s : State) : PortKept s (effectOf i s) := by
  cases i
  case tick => exact absurd rfl ht
  case reset => exact absurd rfl hr
  case wrScroll d => rw [effectOf_wrScroll]; constructor <;> rfl
  case wrAddr d => rw [effectOf_wrAddr]; constructor <;> rfl
  case rdData => rw [effectOf, readDataPort_eq]; constructor <;> rfl
  all_goals constructor <;> rfl

/-! ### The invariant through every step -/

/-- A memory is written only inside its size, so every operation keeps the memories' canonical form. -/
theorem memAfter_wf {s : State} (h : s.mem.Wf) (i : Instr) : (s.memAfter i).Wf := by
  cases i
  case wrOamdata d => exact { h with oam := Memory.wf_write d h.oam s.bank.oamAddr.isLt }
  case wrData d => exact State.memWrite_wf h _ d
  all_goals exact h

/-- Every operation but RESET leaves STATUS[4:0]. -/
theorem bankAfter_status_low {i : Instr} (hr : i ≠ .reset) (s : State) :
    (s.bankAfter i).status &&& 0x1F#8 = s.bank.status &&& 0x1F#8 := by
  cases i
  case reset => exact absurd rfl hr
  case tick => exact tick_status_low s
  case rdStatus => exact clearVblank_low _
  all_goals rfl

theorem reinitialize_inv {s : State} (h : s.Inv) : s.reinitialize.Inv := by
  obtain ⟨-, -, -, hkept⟩ := State.inv_iff.1 h
  exact State.inv_iff.2 ⟨Timing.reset_inRange, RegisterBank.reset_status_low, Sprites.reset_listWf, hkept⟩

theorem effectOf_inv (i : Instr) {s : State} (h : s.Inv) : (effectOf i s).Inv := by
  by_cases ht : i = .tick
  · exact ht ▸ tick_inv h
  by_cases hr : i = .reset
  · exact hr ▸ reinitialize_inv h
  have k := effectOf_portKept ht hr s
  obtain ⟨hraster, hst, hsp, hm, hb, hf⟩ := State.inv_iff.1 h
  rw [State.inv_iff, effectOf_bank, bankAfter_status_low hr, k.sp, effectOf_mem, k.back, k.front]
  exact ⟨⟨k.scanline ▸ hraster.scanline_ge, k.scanline ▸ hraster.scanline_le, k.dot ▸ hraster.dot_le⟩, hst, hsp,
    memAfter_wf hm i, hb, hf⟩

/-- With no word issued the block holds its state (log entry 1). -/
theorem step_of_driver_nil {s : State} (hd : s.driver = []) : step s = .next s := by
  simp only [step, State.nextWord, hd]

/-- A refused word has no step (rule R272). -/
theorem step_of_decode_error {s : State} {w : HostWord} {rest : List HostWord} {e : DecodeError}
    (hd : s.driver = w :: rest) (he : decode w = .error e) : step s = .refused (refusalOf w e) := by
  simp only [step, State.nextWord_of_driver_cons hd, he]

/-- A step that answers a next state holds the state or executes an operation on the machine without the oldest word. -/
theorem step_next {s t : State} (h : step s = .next t) :
    t = s ∨ ∃ i rest, t = effectOf i { s with driver := rest } := by
  rcases hd : s.driver with _ | ⟨w, rest⟩
  · rw [step_of_driver_nil hd] at h
    cases h
    exact .inl rfl
  · rcases hw : decode w with e | i
    · rw [step_of_decode_error hd hw] at h
      cases h
    · rw [step_of_decode_ok hd hw] at h
      exact .inr ⟨i, rest, exec_next h⟩

/-- Settles O7: the invariant does not look at the queue, and every operation keeps it. -/
theorem everyStepKeepsTheInvariant : Obligations.EveryStepKeepsTheInvariant := by
  intro s t hs hstep
  rcases step_next hstep with rfl | ⟨i, rest, rfl⟩
  · exact hs
  · exact effectOf_inv i { hs with }

/-! ### Frames and writers -/

/-- Of the register bank a TICK moves only `v` and STATUS. -/
theorem TickKept.bank_eq {s t : State} (k : TickKept s t) :
    t.bank = { s.bank with v := t.bank.v, status := t.bank.status } := by
  dsimp only
  rw [← k.ctrl, ← k.mask, ← k.staged, ← k.fineX, ← k.w, ← k.readBuffer, ← k.lastDataOut, ← k.oamAddr]

/-- Two STATUS bytes that agree under the mask of STATUS[4:0] agree on its bits. -/
theorem getLsbD_of_status_low {a b : Byte} (h : a &&& 0x1F#8 = b &&& 0x1F#8) {i : Nat} (hi : i < 5) :
    a.getLsbD i = b.getLsbD i := by
  have hmask : (0x1F#8).getLsbD i = true := by revert i; decide
  simpa only [BitVec.getLsbD_and, hmask, Bool.and_true] using congrArg (BitVec.getLsbD · i) h

/-- Settles O29, from what every part of a TICK keeps. -/
theorem tickFrame : Obligations.TickFrame := by
  intro s hm
  have k := tick_kept s
  obtain ⟨calls, hcalls⟩ := k.trace
  exact ⟨s.tick, exec_attached .tick hm, k.mem, k.bank_eq, fun i hi => getLsbD_of_status_low (tick_status_low s) hi,
    k.returned, k.draws, k.driver, k.statusLowSource, k.mapper.attached, k.mapper.mirroring, k.mapper.writeAnswers,
    calls, hcalls.symm⟩

/-- An internal write stores in the nametable, palette or pattern memory, never in OAM (rules R72, R73). -/
theorem State.memWrite_oam (s : State) (a : BusAddr) (b : Byte) : (s.memWrite a b).mem.oam = s.mem.oam := by
  rw [State.memWrite_mem]
  unfold State.internalWrite
  repeat' split
  all_goals rfl

/-- Settles O53, from the memories after each operation. -/
theorem onlyPortWritesChangeMemory : Obligations.OnlyPortWritesChangeMemory := by
  intro i s t ht
  rw [exec_next ht, effectOf_mem]
  cases i
  case wrOamdata d => exact ⟨fun h => absurd rfl (h d), fun _ => ⟨rfl, rfl, rfl⟩⟩
  case wrData d => exact ⟨fun _ => State.memWrite_oam s _ d, fun h => absurd rfl (h d)⟩
  all_goals exact ⟨fun _ => rfl, fun _ => ⟨rfl, rfl, rfl⟩⟩

/-- Only a wrap, past the last dot of the last scanline, changes `front` in an advance (rules R246 to R248). -/
theorem advance_front {s : State} (h : s.advance.front ≠ s.front) :
    260 ≤ s.timing.scanline ∧ 340 ≤ s.timing.dot ∧ s.advance.front = s.back := by
  rw [advance_eq] at h ⊢
  split at h
  next => exact absurd rfl h
  next hd =>
    split at h
    next => exact absurd rfl h
    next hl => rw [if_neg hd, if_neg hl]; exact ⟨by omega, by omega, rfl⟩

/-- A TICK advances past the scanline it started on. -/
theorem timingEvents_scanline_of_tick (s : State) :
    s.oddFrameSkip.dotWork.timingEvents.timing.scanline = s.timing.scanline := by
  rw [(timingEvents_kept _).raster, dotWork_timing, oddFrameSkip_eq]

/-- A TICK advances past the dot it started at, or past dot 1 after the skip (rule R242). -/
theorem timingEvents_dot_of_tick (s : State) :
    s.oddFrameSkip.dotWork.timingEvents.timing.dot = s.timing.dot ∨
      s.oddFrameSkip.dotWork.timingEvents.timing.dot = 1 := by
  rw [(timingEvents_kept _).raster, dotWork_timing, oddFrameSkip_eq]
  dsimp only
  split
  · exact .inr rfl
  · exact .inl rfl

/-- `front` changes in a TICK only past (260, 340), and becomes the back buffer. -/
theorem tick_front {s : State} (h : s.tick.front ≠ s.front) :
    260 ≤ s.timing.scanline ∧ 340 ≤ s.timing.dot ∧ s.tick.front = s.tick.back := by
  have hfront : s.oddFrameSkip.dotWork.timingEvents.front = s.front := by
    rw [(timingEvents_kept _).front, dotWork_front, oddFrameSkip_eq]
  rw [tick_eq, ← hfront] at h
  obtain ⟨hl, hd, hpub⟩ := advance_front h
  have hdot := timingEvents_dot_of_tick s
  exact ⟨timingEvents_scanline_of_tick s ▸ hl, by omega, hpub.trans (advance_kept _).back.symm⟩

/-- Every operation but TICK keeps both frame buffers. -/
theorem effectOf_frames {i : Instr} (ht : i ≠ .tick) (s : State) :
    (effectOf i s).back = s.back ∧ (effectOf i s).front = s.front := by
  by_cases hr : i = .reset
  · exact hr ▸ ⟨rfl, rfl⟩
  · have k := effectOf_portKept ht hr s
    exact ⟨k.back, k.front⟩

/-- Settles O54: past (260, 340) means at it, in a state with the invariant. -/
theorem frontChangesOnlyAtTheWrap : Obligations.FrontChangesOnlyAtTheWrap := by
  intro i s t hs ht
  obtain rfl := exec_next ht
  by_cases hi : i = .tick
  · subst hi
    refine ⟨fun h => ?_, fun _ => rfl⟩
    obtain ⟨hl, hd, hpub⟩ := tick_front h
    exact ⟨rfl, Int.le_antisymm hs.scanline_le hl, Nat.le_antisymm hs.dot_le hd, hpub⟩
  · obtain ⟨hb, hf⟩ := effectOf_frames hi s
    exact ⟨fun h => absurd hf h, fun h => absurd hb h⟩

section Writers

variable {i : Instr} {s : State}

theorem v_writers (hr : i ≠ .reset) (h : (s.bankAfter i).v ≠ s.bank.v) :
    (∃ d, i = .wrAddr d ∧ s.bank.w = true) ∨ (∃ d, i = .wrData d) ∨ i = .rdData ∨ i = .tick := by
  cases i
  case reset => exact absurd rfl hr
  case wrAddr d => exact .inl ⟨d, rfl, by_contra fun hw => h (if_neg hw)⟩
  case wrData d => exact .inr (.inl ⟨d, rfl⟩)
  case rdData => exact .inr (.inr (.inl rfl))
  case tick => exact .inr (.inr (.inr rfl))
  all_goals exact absurd rfl h

theorem t_writers (hr : i ≠ .reset) (h : (s.bankAfter i).t ≠ s.bank.t) :
    (∃ d, i = .wrCtrl d) ∨ (∃ d, i = .wrScroll d) ∨ (∃ d, i = .wrAddr d) := by
  cases i
  case reset => exact absurd rfl hr
  case wrCtrl d => exact .inl ⟨d, rfl⟩
  case wrScroll d => exact .inr (.inl ⟨d, rfl⟩)
  case wrAddr d => exact .inr (.inr ⟨d, rfl⟩)
  case tick => exact absurd (tick_kept s).staged h
  all_goals exact absurd rfl h

theorem fineX_writers (hr : i ≠ .reset) (h : (s.bankAfter i).fineX ≠ s.bank.fineX) :
    ∃ d, i = .wrScroll d ∧ s.bank.w = false := by
  cases i
  case reset => exact absurd rfl hr
  case wrScroll d => exact ⟨d, rfl, Bool.eq_false_iff.2 fun hw => h (if_pos hw)⟩
  case tick => exact absurd (tick_kept s).fineX h
  all_goals exact absurd rfl h

theorem w_writers (hr : i ≠ .reset) (h : (s.bankAfter i).w ≠ s.bank.w) :
    (∃ d, i = .wrScroll d) ∨ (∃ d, i = .wrAddr d) ∨ i = .rdStatus := by
  cases i
  case reset => exact absurd rfl hr
  case wrScroll d => exact .inl ⟨d, rfl⟩
  case wrAddr d => exact .inr (.inl ⟨d, rfl⟩)
  case rdStatus => exact .inr (.inr rfl)
  case tick => exact absurd (tick_kept s).w h
  all_goals exact absurd rfl h

theorem readBuffer_writers (hr : i ≠ .reset) (h : (s.bankAfter i).readBuffer ≠ s.bank.readBuffer) : i = .rdData := by
  cases i
  case reset => exact absurd rfl hr
  case rdData => rfl
  case tick => exact absurd (tick_kept s).readBuffer h
  all_goals exact absurd rfl h

theorem lastDataOut_writers (hr : i ≠ .reset) (h : (s.bankAfter i).lastDataOut ≠ s.bank.lastDataOut) :
    i = .rdData := by
  cases i
  case reset => exact absurd rfl hr
  case rdData => rfl
  case tick => exact absurd (tick_kept s).lastDataOut h
  all_goals exact absurd rfl h

theorem oamAddr_writers (hr : i ≠ .reset) (h : (s.bankAfter i).oamAddr ≠ s.bank.oamAddr) :
    (∃ d, i = .wrOamaddr d) ∨ (∃ d, i = .wrOamdata d) ∨ i = .rdOamdata := by
  cases i
  case reset => exact absurd rfl hr
  case wrOamaddr d => exact .inl ⟨d, rfl⟩
  case wrOamdata d => exact .inr (.inl ⟨d, rfl⟩)
  case rdOamdata => exact .inr (.inr rfl)
  case tick => exact absurd (tick_kept s).oamAddr h
  all_goals exact absurd rfl h

end Writers

/-- Settles O55, register by register. -/
theorem writersOfHiddenRegisters : Obligations.WritersOfHiddenRegisters := by
  intro i s t ht hr
  obtain rfl := exec_next ht
  rw [effectOf_bank]
  refine ⟨v_writers hr, t_writers hr, fineX_writers hr, w_writers hr, readBuffer_writers hr, lastDataOut_writers hr,
    oamAddr_writers hr, fun h => by_contra fun hi => ?_⟩
  have k := effectOf_portKept hi hr s
  rcases h with h | h | h
  · exact h k.bg
  · exact h k.sp
  · exact h k.oddFrame

/-- Settles O8: each field is a quotient of the address, reduced to the field's width (rule R24). -/
theorem compositeAddressLayout : Obligations.CompositeAddressLayout := by
  intro a
  have ha := a.isLt
  simp only [coarseX, coarseY, ntX, ntY, fineY, BitVec.extractLsb'_toNat, Nat.shiftRight_eq_div_pow]
  omega

end Sys2Proof.Machine
end

section
/-! PROOFS. The PPU address space: which cell an address reaches, what a read and a write through the mapper do, and the
data port. -/

namespace Sys2Proof.Machine

/-! ### The ranges and the cell of an address (rules R61, R62, R66 to R69) -/

@[simp] theorem ppuAddr_toNat (addr : BusAddr) : (ppuAddr addr).toNat = addr.toNat % 0x4000 :=
  BitVec.toNat_setWidth 14 addr

@[simp] theorem busOf_toNat (v : CompositeAddr) : (busOf v).toNat = v.toNat :=
  BitVec.toNat_setWidth_of_le (by decide)

theorem inPatternRange_iff (a : PpuAddr) : inPatternRange a = true ↔ a.toNat ≤ 0x1FFF := by
  simp [inPatternRange, BitVec.le_def]

theorem inNametableRange_iff (a : PpuAddr) : inNametableRange a = true ↔ 0x2000 ≤ a.toNat ∧ a.toNat ≤ 0x3EFF := by
  simp [inNametableRange, inPatternRange, BitVec.le_def, Nat.succ_le_iff]

theorem inPatternRange_eq_false {a : PpuAddr} (h : 0x2000 ≤ a.toNat) : inPatternRange a = false := by
  rw [← Bool.not_eq_true, inPatternRange_iff]
  omega

/-- The palette range is what the other two leave (rule R61). -/
theorem inNametableRange_eq_false {a : PpuAddr} (h : 0x3F00 ≤ a.toNat) : inNametableRange a = false := by
  rw [← Bool.not_eq_true, inNametableRange_iff]
  omega

/-- The low `k` bits of an address. -/
theorem extractLsb'_zero_toNat (k : Nat) (a : PpuAddr) : (a.extractLsb' 0 k).toNat = a.toNat % 2 ^ k := by
  rw [BitVec.extractLsb'_toNat, Nat.shiftRight_zero]

/-- One bit of an address. -/
theorem extractLsb'_one_toNat (i : Nat) (a : PpuAddr) : (a.extractLsb' i 1).toNat = a.toNat / 2 ^ i % 2 := by
  rw [BitVec.extractLsb'_toNat, Nat.shiftRight_eq_div_pow]

/-- In the pattern range the index is the address itself (rule R66). -/
theorem ptIndex_eq {a : PpuAddr} (h : a.toNat ≤ 0x1FFF) : ptIndex a = a.toNat := by
  rw [ptIndex, extractLsb'_one_toNat, extractLsb'_zero_toNat]
  omega

theorem ntIndex_eq (m : Mirroring) (a : PpuAddr) : ntIndex m a = 1024 * (ntBank m a).toNat + a.toNat % 0x400 := by
  rw [ntIndex, extractLsb'_zero_toNat]
  rfl

/-- Vertical mirroring: the bank is bit 10 of the offset, quarter by quarter (rule R68). -/
theorem ntBank_vertical (a : PpuAddr) :
    (ntBank .vertical a).toNat =
      if a.toNat % 0x1000 < 0x400 then 0 else if a.toNat % 0x1000 < 0x800 then 1
      else if a.toNat % 0x1000 < 0xC00 then 0 else 1 := by
  rw [ntBank, extractLsb'_one_toNat]
  repeat' split
  all_goals omega

/-- Horizontal mirroring: the bank is bit 11 of the offset (rule R68). -/
theorem ntBank_horizontal (a : PpuAddr) :
    (ntBank .horizontal a).toNat =
      if a.toNat % 0x1000 < 0x400 then 0 else if a.toNat % 0x1000 < 0x800 then 0
      else if a.toNat % 0x1000 < 0xC00 then 1 else 1 := by
  rw [ntBank, extractLsb'_one_toNat]
  repeat' split
  all_goals omega

theorem palIndex_eq (a : PpuAddr) :
    palIndex a =
      if a.toNat % 32 = 0x10 ∨ a.toNat % 32 = 0x14 ∨ a.toNat % 32 = 0x18 ∨ a.toNat % 32 = 0x1C
      then a.toNat % 32 - 0x10 else a.toNat % 32 := by
  rw [palIndex, extractLsb'_zero_toNat]
  rfl

/-- The four aliasing cells are never reached (inference of rule R69). -/
theorem palIndex_ne_alias (a : PpuAddr) :
    palIndex a ≠ 0x10 ∧ palIndex a ≠ 0x14 ∧ palIndex a ≠ 0x18 ∧ palIndex a ≠ 0x1C := by
  rw [palIndex_eq]
  split <;> omega

/-- Settles O10, range by range. -/
theorem cellOfAnAddress : Obligations.CellOfAnAddress := by
  intro m a
  refine ⟨ntBank_vertical a, ntBank_horizontal a, fun hpt => ?pattern, fun hge hle => ?nametable, fun hpal => ?palette⟩
  case pattern => exact ⟨(inPatternRange_iff a).2 hpt, ptIndex_eq hpt⟩
  case nametable => exact ⟨inPatternRange_eq_false hge, (inNametableRange_iff a).2 ⟨hge, hle⟩, ntIndex_eq m a⟩
  case palette =>
    exact ⟨inPatternRange_eq_false (by omega), inNametableRange_eq_false hpal, palIndex_eq a, palIndex_ne_alias a⟩

/-! ### The two reads (rules R63, R65) -/

/-- An intercepted read makes one call, in either mode. -/
theorem State.readCalls_intercepted {s : State} {a : PpuAddr} {b : Byte} (h : s.mapper.readAnswer a = some b)
    (notify : Bool) : s.readCalls notify a = [.interceptRead a] := by
  simp only [State.readCalls, h]

/-- A declined read asks the mirroring in the nametable range, and notifies the latch in the normal mode only. -/
theorem State.readCalls_declined {s : State} {a : PpuAddr} (h : s.mapper.readAnswer a = none) (notify : Bool) :
    s.readCalls notify a = (if notify then [.onLatchUpdate a] else []) ++ mirroringAsk a ++ [.interceptRead a] := by
  simp only [State.readCalls, h]

/-- A read returns its value, and only the mapper's side of the state moves. -/
theorem State.memRead_eq (s : State) (addr : BusAddr) :
    s.memRead addr = (s.readValue (ppuAddr addr), { s with
      mapper := s.mapper.afterRead, trace := s.readCalls true (ppuAddr addr) ++ s.trace }) := rfl

theorem State.memReadDbg_eq (s : State) (addr : BusAddr) :
    s.memReadDbg addr = (s.readValue (ppuAddr addr), { s with
      mapper := s.mapper.afterRead, trace := s.readCalls false (ppuAddr addr) ++ s.trace }) := rfl

/-- Settles O9, by the mapper's answer. -/
theorem readProtocol : Obligations.ReadProtocol := by
  intro s addr
  refine ⟨ppuAddr_toNat addr, fun b hb => ?intercepted, fun hnone => ?declined⟩
  case intercepted =>
    rw [State.memRead_eq, State.memReadDbg_eq, State.readValue_intercepted hb, State.readCalls_intercepted hb,
      State.readCalls_intercepted hb]
    exact ⟨rfl, rfl⟩
  case declined =>
    rw [State.memRead_eq, State.memReadDbg_eq, State.readValue_declined hnone, State.readCalls_declined hnone,
      State.readCalls_declined hnone]
    simp

/-! ### Internal decode in each range (rules R70 to R72) -/

section Decode

variable {s : State} {a : PpuAddr}

theorem State.internalRead_palette (h : 0x3F00 ≤ a.toNat) :
    s.internalRead a = Memory.read .pal s.mem.pal (palIndex a) &&& palMask s.bank.mask := by
  simp [State.internalRead, inPatternRange_eq_false (a := a) (by omega), inNametableRange_eq_false h]

theorem State.internalWrite_pattern (h : a.toNat ≤ 0x1FFF) (b : Byte) :
    s.internalWrite a b = { s.mem with pt := s.mem.pt.write (ptIndex a) b } := by
  simp [State.internalWrite, (inPatternRange_iff a).2 h]

theorem State.internalWrite_nametable (hge : 0x2000 ≤ a.toNat) (hle : a.toNat ≤ 0x3EFF) (b : Byte) :
    s.internalWrite a b = { s.mem with nt := s.mem.nt.write (ntIndex s.mapper.mirroring a) b } := by
  simp [State.internalWrite, inPatternRange_eq_false hge, (inNametableRange_iff a).2 ⟨hge, hle⟩]

theorem State.internalWrite_palette (h : 0x3F00 ≤ a.toNat) (b : Byte) :
    s.internalWrite a b = { s.mem with pal := s.mem.pal.write (palIndex a) b } := by
  simp [State.internalWrite, inPatternRange_eq_false (a := a) (by omega), inNametableRange_eq_false h]

end Decode

theorem palMask_toNat_le (mask : Byte) : (palMask mask).toNat ≤ 0x3F := by
  unfold palMask
  split <;> decide

/-- Settles O11: a byte under the palette mask is at most the mask. -/
theorem paletteReadIsMasked : Obligations.PaletteReadIsMasked := by
  intro s a ha
  rw [State.internalRead_palette ha]
  refine ⟨rfl, ?_⟩
  rw [BitVec.toNat_and]
  exact Nat.and_le_right.trans (palMask_toNat_le _)

/-! ### A declined write (rules R64, R71) -/

theorem State.memWrite_mem_declined {s : State} {addr : BusAddr} {b : Byte}
    (h : s.mapper.writeAnswer (ppuAddr addr) b = false) :
    (s.memWrite addr b).mem = s.internalWrite (ppuAddr addr) b := by
  simp [h]

/-- Below the palette range a cell reads back the byte just written to it. -/
theorem State.internalRead_written {s t : State} {a : PpuAddr} {b : Byte} (hmem : t.mem = s.internalWrite a b)
    (hmask : t.bank.mask = s.bank.mask) (hmir : t.mapper.mirroring = s.mapper.mirroring) (ha : a.toNat ≤ 0x3EFF) :
    t.internalRead a = b := by
  rw [State.internalRead_after_write hmem hmask hmir]
  by_cases hp : inPatternRange a = true
  · simp [hp]
  · have hn : inNametableRange a = true := by
      rw [inPatternRange_iff] at hp
      exact (inNametableRange_iff a).2 ⟨by omega, ha⟩
    simp [hp, hn]

/-- In the palette range every address of the written cell reads back the byte under the mask. -/
theorem State.internalRead_written_palette {s t : State} {a a' : PpuAddr} {b : Byte}
    (hmem : t.mem = s.internalWrite a b) (hmask : t.bank.mask = s.bank.mask)
    (ha : 0x3F00 ≤ a.toNat) (ha' : 0x3F00 ≤ a'.toNat) (hk : palIndex a' = palIndex a) :
    t.internalRead a' = b &&& palMask s.bank.mask := by
  rw [State.internalRead_palette ha', hmem, State.internalWrite_palette ha, hmask, hk, Memory.read_write_same]

/-- Settles O12: the declined read is the internal cell that the declined write stored in. -/
theorem memoryRoundTrip : Obligations.MemoryRoundTrip := by
  intro s a b val hwrite hread
  have hmem := State.memWrite_mem_declined hwrite
  rw [State.memReadDbg_fst, State.readValue_declined hread, ← ppuAddr_toNat, ← ppuAddr_toNat]
  refine ⟨fun ha hab => ?_, fun ha hb hk => ?_⟩
  · subst hab
    exact State.internalRead_written hmem rfl rfl ha
  · exact State.internalRead_written_palette hmem rfl ha hb hk

/-! ### The data port (rules R111, R112, R120, R128) -/

/-- `v` moves on by the stride modulo 2^15 (rule R111). -/
theorem add_stride_toNat (v : CompositeAddr) (ctrl : Byte) :
    (v + stride ctrl).toNat = (v.toNat + if ctrl.getLsbD 2 then 32 else 1) % 32768 := by
  rw [BitVec.toNat_add, stride, ctrlInc32]
  split <;> rfl

theorem ppuAddr_busOf_toNat (v : CompositeAddr) : (ppuAddr (busOf v)).toNat = v.toNat % 0x4000 := by
  rw [ppuAddr_toNat, busOf_toNat]

theorem inPaletteRange_iff (v : CompositeAddr) : inPaletteRange v = true ↔ 0x3F00 ≤ v.toNat % 0x4000 := by
  simp [inPaletteRange, BitVec.le_def]

theorem storedByte_write (r : Region) (m : Memory) (k : Nat) (d : Byte) : StoredByte r m (m.write k d) k d :=
  ⟨Memory.read_write_same r m k d, fun _ hj => Memory.read_write_other r m d hj⟩

theorem State.writeCalls_intercepted {s : State} {a : PpuAddr} {b : Byte} (h : s.mapper.writeAnswer a b = true) :
    s.writeCalls a b = [.interceptWrite a b] := by
  simp only [State.writeCalls, h]

theorem State.writeCalls_declined {s : State} {a : PpuAddr} {b : Byte} (h : s.mapper.writeAnswer a b = false) :
    s.writeCalls a b = .onLatchUpdate a :: (mirroringAsk a ++ [.interceptWrite a b]) := by
  simp [State.writeCalls, h]

/-- Settles O18, by the mapper's answer and then by the range of the address. -/
theorem wrDataResult : Obligations.WrDataResult := by
  intro d s hm
  refine ⟨_, exec_attached (.wrData d) hm, ppuAddr_busOf_toNat _, add_stride_toNat _ _, fun htaken => ?taken,
    fun hdeclined => ?declined, rfl, rfl⟩
  case taken =>
    simp [effectOf, htaken, State.writeCalls_intercepted htaken]
  case declined =>
    have hmem : (effectOf (.wrData d) s).mem = s.internalWrite (ppuAddr (busOf s.bank.v)) d :=
      State.memWrite_mem_declined hdeclined
    rw [hmem]
    refine ⟨?calls, fun hpt => ?pattern, fun hge hle => ?nametable, fun hpal => ?palette⟩
    case calls => simp [effectOf, State.writeCalls_declined hdeclined]
    case pattern => rw [State.internalWrite_pattern hpt]; exact ⟨storedByte_write _ _ _ _, rfl⟩
    case nametable => rw [State.internalWrite_nametable hge hle]; exact ⟨storedByte_write _ _ _ _, rfl⟩
    case palette => rw [State.internalWrite_palette hpal]; exact ⟨storedByte_write _ _ _ _, rfl⟩

/-- In the palette range the fetched byte is returned at once. -/
theorem dataResult_palette {s : State} (h : 0x3F00 ≤ s.bank.v.toNat % 0x4000) (b : Byte) : dataResult s b = b :=
  if_pos ((inPaletteRange_iff _).2 h)

/-- Below it, the byte that the previous read fetched. -/
theorem dataResult_buffered {s : State} (h : s.bank.v.toNat % 0x4000 < 0x3F00) (b : Byte) :
    dataResult s b = s.bank.readBuffer :=
  if_neg (by rw [inPaletteRange_iff]; omega)

/-- Settles O22, from the data-port read as one update. -/
theorem rdDataResult : Obligations.RdDataResult := by
  intro s hm
  have hexec : exec .rdData s = .next (readDataPort s) := exec_attached .rdData hm
  rw [readDataPort_eq] at hexec
  refine ⟨_, s.readValue (ppuAddr (busOf s.bank.v)), dataResult s (s.readValue (ppuAddr (busOf s.bank.v))), hexec,
    ppuAddr_busOf_toNat _, fun b hb => State.readValue_intercepted hb, State.readValue_declined,
    fun hpal => dataResult_palette hpal _, fun hlow => dataResult_buffered hlow _, add_stride_toNat _ _, ?calls, rfl,
    rfl⟩
  case calls =>
    cases ha : s.mapper.readAnswer (ppuAddr (busOf s.bank.v)) with
    | some b => simp [State.readCalls_intercepted ha]
    | none => simp [State.readCalls_declined ha]

end Sys2Proof.Machine
end

section
/-! PROOFS. The mapper's side of a TICK: what the sprite fetch loads, which reads a TICK makes in which order, and its
calls; and the debug tile queries, which only read. -/

namespace Sys2Proof.Machine

/-! ### The mapper's side of a TICK (rules R174, R197 to R203, R240, R245, R277, R278) -/

theorem onRenderingLine_iff (s : State) : s.onRenderingLine = true ↔ s.RenderingLine := by
  simp [State.onRenderingLine, State.RenderingLine]

/-- Where the skip of rule R242 does not happen, it changes nothing. -/
theorem oddFrameSkip_of_not_skipsDot {s : State} (h : ¬ s.SkipsDot) : s.oddFrameSkip = s := if_neg h

/-- The skip goes from dot 0 to dot 1, so every other dot is the TICK's own. -/
theorem oddFrameSkip_dot_eq_iff (s : State) {d : Nat} (hd : 2 ≤ d) :
    s.oddFrameSkip.timing.dot = d ↔ s.timing.dot = d := by
  rw [oddFrameSkip_eq]
  dsimp only
  split <;> omega

/-- The fixed-dot events are at dots 1 and 260 (rules R243 to R245). -/
theorem timingEvents_of_dot {s : State} (h1 : s.timing.dot ≠ 1) (h260 : s.timing.dot ≠ 260) : s.timingEvents = s := by
  simp [State.timingEvents, h1, h260]

/-- A read that comes after the reads which led from `s` to `t`, as `s` sees it. -/
theorem readAfter_of_reads {s t : State} {as : List BusAddr} (r : Reads s t as) (k : TickKept s t) (n : Nat)
    (addr : BusAddr) : t.readAfter n addr = s.readAfter (as.length + n) addr := by
  rw [State.readAfter, State.readAfter, r.mapper, ← Mapper.afterReads_add,
    State.internalRead_congr k.mem k.mask k.mapper.mirroring]

/-- At dot 340 the sprite pipeline after a TICK is that of the sprite fetch, which follows the dummy fetch. -/
theorem tick_sp_of_dot_340 {s : State} (hl : s.RenderingLine) (hd : s.timing.dot = 340) :
    s.tick.sp = s.backgroundStep.fetchSprites.sp := by
  have hskip : s.oddFrameSkip = s := oddFrameSkip_of_not_skipsDot fun h => by
    obtain ⟨-, h0, -⟩ := h
    omega
  have hfetch : s.backgroundStep.spriteStep = s.backgroundStep.fetchSprites := by
    simp [State.spriteStep, State.onRenderingLine, (backgroundStep_kept s).timing, hd, hl.1, hl.2]
  have hevents : s.dotWork.timingEvents = s.dotWork :=
    timingEvents_of_dot (by rw [dotWork_timing]; omega) (by rw [dotWork_timing]; omega)
  rw [tick_eq, hskip, (advance_kept _).sp, hevents, State.dotWork, (compositorStep_kept _).sp, hfetch]

/-- The dummy fetch of dot 340 is the one read before the slots' (rule R174). -/
theorem backgroundStep_reads_of_dot_340 {s : State} (hl : s.RenderingLine) (hd : s.timing.dot = 340) :
    Reads s s.backgroundStep [tileIdAddr s.bank.v] := by
  have r := backgroundStep_reads s
  rwa [(onRenderingLine_iff s).2 hl, State.bgFetch, hd] at r

/-- Every slot after a sprite fetch: slot i's planes are its reads 2i and 2i + 1 (rule R201). -/
theorem fetchSprites_slot_readAfter (s : State) (i : Fin 8) :
    s.fetchSprites.sp.slot[i] =
      if i.val < s.sp.count then
        s.sp.slot[i].loaded (s.readAfter (2 * i.val) (s.spriteAddr s.sp.slot[i]))
          (s.readAfter (2 * i.val + 1) (s.spriteAddr s.sp.slot[i] + 8#16))
      else s.sp.slot[i] :=
  fetchSprites_slot s i

/-- Every slot after the TICK of dot 340: slot i's planes are reads 1 + 2i and 2 + 2i (rules R174, R201 to R203). -/
theorem tick_slot_of_dot_340 {s : State} (hl : s.RenderingLine) (hd : s.timing.dot = 340) (i : Fin 8) :
    s.tick.sp.slot[i] =
      if i.val < s.sp.count then
        s.sp.slot[i].loaded (s.readAfter (1 + 2 * i.val) (s.spriteAddr s.sp.slot[i]))
          (s.readAfter (2 + 2 * i.val) (s.spriteAddr s.sp.slot[i] + 8#16))
      else s.sp.slot[i] := by
  have k := backgroundStep_kept s
  have hread := readAfter_of_reads (backgroundStep_reads_of_dot_340 hl hd) k.toTickKept
  have haddr (sl : Slot) : s.backgroundStep.spriteAddr sl = s.spriteAddr sl := by
    simp only [State.spriteAddr, k.ctrl, k.timing]
  have hfetch := fetchSprites_slot_readAfter s.backgroundStep i
  simp only [k.sp, haddr, hread, List.length_singleton] at hfetch
  rw [tick_sp_of_dot_340 hl hd, hfetch, show 2 + 2 * i.val = 1 + (2 * i.val + 1) by omega]

/-- A slot that is not flipped takes the bytes as they are read. -/
theorem Slot.loaded_plain {sl : Slot} (h : sl.attr.getLsbD 6 = false) (lo hi : Byte) :
    sl.loaded lo hi = { sl with lo := lo, hi := hi } := by
  rw [Slot.loaded, flipRow, flipRow, attrHFlip, h]
  rfl

/-- A slot with hFlip takes them bit-reversed (rule R202). -/
theorem Slot.loaded_flipped {sl : Slot} (h : sl.attr.getLsbD 6 = true) (lo hi : Byte) :
    sl.loaded lo hi = { sl with lo := lo.reverse, hi := hi.reverse } := by
  rw [Slot.loaded, flipRow, flipRow, attrHFlip, h]
  rfl

/-- Settles O44: the sprite fetch as the whole TICK's effect on each slot, by the flip. -/
theorem spriteFetchLoadsThePlanes : Obligations.SpriteFetchLoadsThePlanes := by
  intro s hm hl hd
  have hsp := tick_sp_of_dot_340 hl hd
  have kb := backgroundStep_kept s
  have kf : FetchKept s.backgroundStep s.backgroundStep.fetchSprites := fetchSlots_kept slotNumbers _
  refine ⟨s.tick, exec_attached .tick hm, by rw [hsp, kf.count, kb.sp], by rw [hsp, kf.zeroPossible, kb.sp],
    fun i => ?_⟩
  rw [tick_slot_of_dot_340 hl hd i]
  refine ⟨fun hi hflip => ?plain, fun hi hflip => ?flipped, fun hi => ?invalid⟩
  case plain => rw [if_pos hi, Slot.loaded_plain hflip]
  case flipped => rw [if_pos hi, Slot.loaded_flipped hflip]
  case invalid => exact if_neg (by omega)

/-- The background's read as a list, in the words of the schedule (rules R163, R174). -/
theorem bgFetch_toList (s : State) :
    s.bgFetch.toList =
      if (2 ≤ s.timing.dot ∧ s.timing.dot ≤ 257) ∨ (321 ≤ s.timing.dot ∧ s.timing.dot ≤ 337) then
        if (s.timing.dot - 1) % 8 = 0 then [tileIdAddr s.bank.v]
        else if (s.timing.dot - 1) % 8 = 2 then [attrAddr s.bank.v]
        else if (s.timing.dot - 1) % 8 = 4 then [s.bgPlaneAddr]
        else if (s.timing.dot - 1) % 8 = 6 then [s.bgPlaneAddr + 8#16]
        else []
      else if s.timing.dot = 338 ∨ s.timing.dot = 340 then [tileIdAddr s.bank.v]
      else [] := by
  unfold State.bgFetch
  simp only [qualifyingDot, Bool.or_eq_true, Bool.and_eq_true, decide_eq_true_eq]
  split
  · split
    next hphase => simp [hphase]
    next hphase => simp [hphase]
    next hphase => simp [hphase]
    next hphase => simp [hphase]
    next h0 h2 h4 h6 => simp only [if_neg h0, if_neg h2, if_neg h4, if_neg h6, Option.toList_none]
  · split <;> rfl

/-- The compositor's window lies on the visible scanlines (rule R220). -/
theorem inCompositorWindow_iff (s : State) :
    s.inCompositorWindow = true ↔ s.VisibleLine ∧ 1 ≤ s.timing.dot ∧ s.timing.dot ≤ 257 := by
  simp [State.inCompositorWindow, State.VisibleLine, and_assoc]

/-- The addresses that the statements list are those of the steps' reads, in their order. -/
theorem tickReads_eq (s : State) :
    s.tickReads =
      (if s.onRenderingLine then s.bgFetch.toList else []) ++
        (if s.onRenderingLine = true ∧ s.timing.dot = 340 then slotNumbers.flatMap s.planes else []) ++
        (if s.inCompositorWindow = true ∧ s.timing.dot ≤ 256 then
          [colourAddr s.backgroundStep.spriteStep.outPixel] else []) := by
  by_cases hl : s.RenderingLine
  · have hpixel : (s.inCompositorWindow = true ∧ s.timing.dot ≤ 256) ↔
        0 ≤ s.timing.scanline ∧ 1 ≤ s.timing.dot ∧ s.timing.dot ≤ 256 := by
      rw [inCompositorWindow_iff]
      obtain ⟨-, hle⟩ := hl
      unfold State.VisibleLine
      omega
    simp only [(onRenderingLine_iff s).2 hl, if_true, true_and, hpixel, bgFetch_toList]
    exact if_pos hl
  · have hoff : s.onRenderingLine = false := by rwa [← Bool.not_eq_true, onRenderingLine_iff]
    have hwindow : s.inCompositorWindow = false := by
      rw [← Bool.not_eq_true, inCompositorWindow_iff]
      rintro ⟨⟨hge, hle⟩, -⟩
      exact hl ⟨by omega, hle⟩
    simp only [hoff, hwindow, Bool.false_eq_true, false_and, if_false, List.append_nil]
    exact if_neg hl

theorem dotWork_tickReads (s : State) : Reads s s.dotWork s.tickReads := by
  rw [tickReads_eq]
  exact dotWork_reads s

/-- The notification that a TICK owes: at dot 260 of a rendering scanline with a render enable set (rule R245). -/
def State.scanlineCall (s : State) : List MapperCall :=
  if -1 ≤ s.timing.scanline ∧ s.timing.scanline ≤ 239 ∧ s.timing.dot = 260 ∧
      (s.bank.mask.getLsbD 3 || s.bank.mask.getLsbD 4) = true
    then [.onScanlineBoundary] else []

/-- The calls of a TICK, oldest first: those of its reads, then the notification. -/
def State.tickCalls (s : State) : List MapperCall := s.mapper.transcript s.oddFrameSkip.tickReads ++ s.scanlineCall

theorem scanlineCall_due {s : State} (hl : s.RenderingLine) (hd : s.timing.dot = 260)
    (hr : (s.bank.mask.getLsbD 3 || s.bank.mask.getLsbD 4) = true) : s.scanlineCall = [.onScanlineBoundary] :=
  if_pos ⟨hl.1, hl.2, hd, hr⟩

theorem scanlineCall_not_due {s : State} (h : ¬(s.RenderingLine ∧ s.timing.dot = 260 ∧
    (s.bank.mask.getLsbD 3 || s.bank.mask.getLsbD 4) = true)) : s.scanlineCall = [] :=
  if_neg fun ⟨hge, hle, hdue⟩ => h ⟨⟨hge, hle⟩, hdue⟩

/-- The notification offers the mapper neither a read nor a write. -/
theorem scanlineCall_mem {s : State} {c : MapperCall} (h : c ∈ s.scanlineCall) : c = .onScanlineBoundary := by
  unfold State.scanlineCall at h
  split at h
  · exact List.mem_singleton.1 h
  · exact absurd h List.not_mem_nil

/-- `tickCalls` is what a TICK adds to the trace. -/
theorem tick_trace_eq_tickCalls (s : State) : s.tick.trace = s.tickCalls.reverse ++ s.trace := by
  have r := dotWork_tickReads s.oddFrameSkip
  have hmapper : s.oddFrameSkip.mapper = s.mapper := by rw [oddFrameSkip_eq]
  have htrace : s.oddFrameSkip.trace = s.trace := by rw [oddFrameSkip_eq]
  have hdue : (s.oddFrameSkip.timing.dot = 260 ∧ s.onRenderingLine = true ∧ s.renderingEnabled = true) ↔
      (-1 ≤ s.timing.scanline ∧ s.timing.scanline ≤ 239 ∧ s.timing.dot = 260 ∧
        (s.bank.mask.getLsbD 3 || s.bank.mask.getLsbD 4) = true) := by
    rw [oddFrameSkip_dot_eq_iff s (by decide), onRenderingLine_iff]
    exact ⟨fun ⟨hd, ⟨hge, hle⟩, hr⟩ => ⟨hge, hle, hd, hr⟩, fun ⟨hge, hle, hd, hr⟩ => ⟨hd, ⟨hge, hle⟩, hr⟩⟩
  rw [tick_trace, r.trace, hmapper, htrace, State.tickCalls, State.scanlineCall, List.reverse_append,
    List.append_assoc]
  simp only [hdue]
  split <;> rfl

theorem tick_mapper_eq_afterReads (s : State) :
    s.tick.mapper = s.mapper.afterReads s.oddFrameSkip.tickReads.length := by
  rw [tick_mapper, (dotWork_tickReads _).mapper, oddFrameSkip_eq]

theorem mirroringAsk_mem {a : PpuAddr} {c : MapperCall} (h : c ∈ mirroringAsk a) : c = .mirroringMode := by
  unfold mirroringAsk at h
  split at h
  · exact List.mem_singleton.1 h
  · exact absurd h List.not_mem_nil

/-- The mirroring question offers no read. -/
theorem mirroringAsk_filter_isRead (a : PpuAddr) : (mirroringAsk a).filter MapperCall.isRead = [] :=
  List.filter_eq_nil_iff.2 fun c hc => by simp [mirroringAsk_mem hc, MapperCall.isRead]

/-- Of the calls of a sequence of reads, one per read offers it to the mapper (rule R63). -/
theorem Mapper.transcript_filter_isRead (m : Mapper) (as : List BusAddr) :
    ((m.transcript as).filter MapperCall.isRead).length = as.length := by
  induction as generalizing m with
  | nil => rfl
  | cons a as ih =>
    cases h : m.readAnswer (ppuAddr a) <;>
      simp [Mapper.transcript, h, List.filter_cons, MapperCall.isRead, mirroringAsk_filter_isRead, ih]

/-- The background makes one read at most at a dot (rule R177). -/
theorem bgFetch_toList_length_le (s : State) : s.bgFetch.toList.length ≤ 1 := by
  cases s.bgFetch <;> simp

theorem planes_length_le (s : State) (i : Fin 8) : (s.planes i).length ≤ 2 := by
  unfold State.planes
  split <;> simp

/-- The eight slots make sixteen reads at most. -/
theorem slotPlanes_length_le (s : State) : (slotNumbers.flatMap s.planes).length ≤ 16 := by
  rw [List.length_flatMap]
  exact List.sum_le_card_nsmul _ 2 (by simpa using fun i _ => planes_length_le s i)

theorem length_ite_nil_le {α : Type} {c : Prop} [Decidable c] {l : List α} {n : Nat} (h : l.length ≤ n) :
    (if c then l else []).length ≤ n := by
  split
  · exact h
  · exact Nat.zero_le n

/-- Off dot 340 only the background and the pixel read. -/
theorem tickReads_length_le_two {s : State} (h : s.timing.dot ≠ 340) : s.tickReads.length ≤ 2 := by
  have hsprites : ¬(s.onRenderingLine = true ∧ s.timing.dot = 340) := fun ⟨_, hd⟩ => h hd
  rw [tickReads_eq, if_neg hsprites, List.append_nil, List.length_append]
  exact Nat.add_le_add (length_ite_nil_le (bgFetch_toList_length_le s)) (length_ite_nil_le Nat.le.refl)

/-- At dot 340 no pixel is drawn: the dummy fetch and the slots' planes are all (bound inferred in rule R240). -/
theorem tickReads_length_le (s : State) : s.tickReads.length ≤ 17 := by
  by_cases h : s.timing.dot = 340
  · have hpixel : ¬(s.inCompositorWindow = true ∧ s.timing.dot ≤ 256) := by omega
    rw [tickReads_eq, if_neg hpixel, List.append_nil, List.length_append]
    exact Nat.add_le_add (length_ite_nil_le (bgFetch_toList_length_le s)) (length_ite_nil_le (slotPlanes_length_le s))
  · exact (tickReads_length_le_two h).trans (by decide)

/-- The calls of a TICK offer the mapper its reads and nothing else to read. -/
theorem tickCalls_filter_isRead (s : State) :
    (s.tickCalls.reverse.filter MapperCall.isRead).length = s.oddFrameSkip.tickReads.length := by
  have hscanline : s.scanlineCall.filter MapperCall.isRead = [] :=
    List.filter_eq_nil_iff.2 fun c hc => by simp [scanlineCall_mem hc, MapperCall.isRead]
  rw [List.filter_reverse, List.length_reverse, State.tickCalls, List.filter_append, hscanline, List.append_nil,
    Mapper.transcript_filter_isRead]

/-- The scanline notifications of a TICK are those of `scanlineCall`: a read makes none. -/
theorem tickCalls_count_scanline (s : State) :
    s.tickCalls.reverse.count .onScanlineBoundary = s.scanlineCall.count .onScanlineBoundary := by
  rw [List.count_reverse, State.tickCalls, List.count_append,
    List.count_eq_zero.2 (Mapper.transcript_mem s.mapper _).1, Nat.zero_add]

/-- A TICK offers no write. -/
theorem interceptWrite_not_mem_tickCalls (s : State) (a : PpuAddr) (b : Byte) : .interceptWrite a b ∉ s.tickCalls := by
  rw [State.tickCalls, List.mem_append]
  rintro (h | h)
  · exact (Mapper.transcript_mem s.mapper _).2 a b h
  · cases scanlineCall_mem h

/-- Settles O51, from the calls of a TICK as its reads and the notification. -/
theorem tickMapperCalls : Obligations.TickMapperCalls := by
  intro s hm
  refine ⟨s.tick, s.tickCalls.reverse, exec_attached .tick hm, tick_trace_eq_tickCalls s,
    fun hskip => ⟨?calls, ?mapper⟩, fun hl hd hr => ?due, fun hnot => ?notDue, ?bound, fun hd => ?boundOff340,
    fun a b h => interceptWrite_not_mem_tickCalls s a b (List.mem_reverse.1 h)⟩
  case calls => rw [List.reverse_reverse, State.tickCalls, oddFrameSkip_of_not_skipsDot hskip]; rfl
  case mapper => rw [tick_mapper_eq_afterReads, oddFrameSkip_of_not_skipsDot hskip]
  case due => rw [tickCalls_count_scanline, scanlineCall_due hl hd hr]; rfl
  case notDue => rw [← List.count_eq_zero, tickCalls_count_scanline, scanlineCall_not_due hnot]; rfl
  case bound => rw [tickCalls_filter_isRead]; exact tickReads_length_le _
  case boundOff340 =>
    rw [tickCalls_filter_isRead]
    exact tickReads_length_le_two fun h => hd ((oddFrameSkip_dot_eq_iff s (by decide)).1 h)

/-! ### Tile queries (rule R284) -/

/-- What a tile query may do from `s` to `t`: move the mapper's side only, by calls that offer a read or ask the
mirroring. -/
structure QueryKept (s t : State) : Prop where
  frame : t = { s with mapper := t.mapper, trace := t.trace }
  calls : ∃ calls, t.trace = calls ++ s.trace ∧ ∀ c ∈ calls, c = .mirroringMode ∨ ∃ a, c = .interceptRead a

theorem QueryKept.refl (s : State) : QueryKept s s := ⟨rfl, [], rfl, fun _ h => absurd h List.not_mem_nil⟩

theorem QueryKept.trans {s t u : State} (h : QueryKept s t) (h' : QueryKept t u) : QueryKept s u := by
  obtain ⟨older, hold, hmem⟩ := h.calls
  obtain ⟨newer, hnew, hmem'⟩ := h'.calls
  refine ⟨?_, newer ++ older, by rw [hnew, hold, List.append_assoc], fun c hc => ?_⟩
  · calc u = { t with mapper := u.mapper, trace := u.trace } := h'.frame
      _ = { s with mapper := u.mapper, trace := u.trace } := by rw [h.frame]
  · exact (List.mem_append.1 hc).elim (hmem' c) (hmem c)

/-- A debug read's calls: the offer and, where the mapper declines, the mirroring question (rule R65). -/
theorem State.readCalls_debug_mem {s : State} {a : PpuAddr} {c : MapperCall} (h : c ∈ s.readCalls false a) :
    c = .mirroringMode ∨ ∃ a, c = .interceptRead a := by
  cases ha : s.mapper.readAnswer a with
  | some b =>
    rw [State.readCalls_intercepted ha] at h
    exact .inr ⟨a, List.mem_singleton.1 h⟩
  | none =>
    rw [State.readCalls_declined ha] at h
    rcases List.mem_append.1 h with h | h
    · exact .inl (mirroringAsk_mem h)
    · exact .inr ⟨a, List.mem_singleton.1 h⟩

theorem memReadDbg_queryKept (s : State) (addr : BusAddr) : QueryKept s (s.memReadDbg addr).2 :=
  ⟨rfl, _, rfl, fun _ hc => State.readCalls_debug_mem hc⟩

/-- A sequence of queries keeps what each of them keeps. -/
theorem collect_queryKept {α : Type} {f : Nat → State → α × State} (hf : ∀ k s, QueryKept s (f k s).2)
    (l : List Nat) (s : State) : QueryKept s (collect f l s).2 := by
  induction l generalizing s with
  | nil => exact .refl s
  | cons k rest ih => exact (hf k s).trans (ih _)

theorem tilePixel_queryKept (base : BusAddr) (tileId : Byte) (r c : Nat) (s : State) :
    QueryKept s (tilePixel base tileId r c s).2 :=
  (memReadDbg_queryKept s _).trans (memReadDbg_queryKept _ _)

theorem tileColour_queryKept (base : BusAddr) (tileId : Byte) (pal : BitVec 3) (c r : Nat) (s : State) :
    QueryKept s (tileColour base tileId pal c r s).2 :=
  (tilePixel_queryKept base tileId r c s).trans (memReadDbg_queryKept _ _)

theorem tileColours_queryKept (base : BusAddr) (tileId : Byte) (pal : BitVec 3) (s : State) :
    QueryKept s (tileColours base tileId pal s).2 :=
  collect_queryKept (fun c => collect_queryKept (tileColour_queryKept base tileId pal c) _) _ s

/-- A query that is answered is answered by what it computed (rule R271). -/
theorem answerQuery_next {s t : State} {q : Tile} {r : Tile × State} (h : answerQuery s r = .next (q, t)) :
    r.2 = t := by
  unfold answerQuery State.withMapper at h
  split at h
  · cases h; rfl
  · cases h

/-- Settles O59: each query is debug reads, one after the other. -/
theorem tileQueriesChangeNothing : Obligations.TileQueriesChangeNothing := by
  intro s q t hquery
  have hkept : QueryKept s t := by
    rcases hquery with ⟨bank, id, pal, h⟩ | ⟨nt, col, row, h⟩ | ⟨n, h⟩
    · exact answerQuery_next h ▸ tileColours_queryKept _ id pal s
    · exact answerQuery_next h ▸ ((memReadDbg_queryKept s _).trans (memReadDbg_queryKept _ _)).trans
        (tileColours_queryKept _ _ _ _)
    · exact answerQuery_next h ▸ tileColours_queryKept _ _ _ s
  exact ⟨hkept.frame, hkept.calls⟩

end Sys2Proof.Machine
end

section
/-! PROOFS. The fields that rule R94 does not refuse are those of the 28 operations, one operation each; the decoder's
refusals branch by branch; and the encoder as the inverse of the decoder. -/

namespace Sys2Proof

/-! ### Words, classes and ports, read and written back -/

@[simp] theorem HostClass.bits_ofBits (op : BitVec 3) : (HostClass.ofBits op).bits = op := by
  revert op; decide

@[simp] theorem Port.bits_ofBits (port : BitVec 3) : (Port.ofBits port).bits = port := by
  revert port; decide

theorem HostClass.ofBits_eq_reserved_iff {op : BitVec 3} : HostClass.ofBits op = .reserved ↔ op = 7#3 := by
  revert op; decide

/-- The classes without a port are the control classes. -/
theorem HostClass.usesPort_ofBits_eq_false_iff {op : BitVec 3} (hdefined : op ≠ 7#3) :
    (HostClass.ofBits op).usesPort = false ↔ op = 3#3 ∨ op = 4#3 ∨ op = 5#3 ∨ op = 6#3 := by
  revert op; decide

/-- The classes without data are the two read classes and the control classes. -/
theorem HostClass.usesData_ofBits_eq_false_iff {op : BitVec 3} (hdefined : op ≠ 7#3) :
    (HostClass.ofBits op).usesData = false ↔ (op = 1#3 ∨ op = 2#3) ∨ op = 3#3 ∨ op = 4#3 ∨ op = 5#3 ∨ op = 6#3 := by
  revert op; decide

/-- The four fields cover the word (rule R90). -/
@[simp] theorem HostFields.toWord_ofWord (w : HostWord) : (HostFields.ofWord w).toWord = w := by
  simp only [HostFields.toWord, HostFields.ofWord]
  rw [BitVec.extractLsb'_append_extractLsb'_eq_extractLsb' (start₂ := 13) (start₁ := 11) rfl,
    BitVec.extractLsb'_append_extractLsb'_eq_extractLsb' (start₂ := 11) (start₁ := 8) rfl,
    BitVec.extractLsb'_append_extractLsb'_eq_extractLsb' (start₂ := 8) (start₁ := 0) rfl]
  exact BitVec.extractLsb'_eq_self

@[simp] theorem writeOf_fields (p : Port) (d : Byte) : (writeOf p d).fields = portFields .wr p d := by
  cases p <;> rfl

@[simp] theorem readOf_fields (p : Port) : (readOf p).fields = portFields .rd p 0#8 := by
  cases p <;> rfl

@[simp] theorem debugOf_fields (p : Port) : (debugOf p).fields = portFields .dbg p 0#8 := by
  cases p <;> rfl

/-! ### Well-formed fields are those of an operation -/

/-- Every row of rule R96 passes the four checks of rule R94. -/
@[simp] theorem Instr.wellFormed_eq_true (i : Instr) : i.wellFormed = true := by
  cases i <;> rfl

/-- The checks of rule R94, by class. -/
theorem HostFields.wellFormed_iff {f : HostFields} :
    f.wellFormed = true ↔ f.rsv = 0#2 ∧ f.op ≠ 7#3 ∧
      ((HostClass.ofBits f.op).usesPort = false → f.port = 0#3) ∧
      ((HostClass.ofBits f.op).usesData = false → f.data = 0#8) := by
  simp [HostFields.wellFormed, HostFields.rsvZero, HostFields.opDefined, HostFields.portZeroIfUnused,
    HostFields.dataZeroIfUnused, HostClass.ofBits_eq_reserved_iff, ← Bool.not_eq_true, and_assoc, or_iff_not_imp_left]

/-- Fields with no reserved bit set are those of a class, a port and a data byte. -/
theorem HostFields.portFields_of_rsv_zero {f : HostFields} (hrsv : f.rsv = 0#2) :
    portFields (HostClass.ofBits f.op) (Port.ofBits f.port) f.data = f := by
  simp [portFields, ← hrsv]

/-- Well-formed fields are an operation's: the class and, for a port operation, the port name it. -/
theorem HostFields.exists_fields_of_wellFormed {f : HostFields} (h : f.wellFormed = true) :
    ∃ i : Instr, i.fields = f := by
  obtain ⟨hrsv, hop, hport, hdata⟩ := HostFields.wellFormed_iff.1 h
  have hdefined := mt HostClass.ofBits_eq_reserved_iff.1 hop
  rw [← HostFields.portFields_of_rsv_zero hrsv]
  generalize HostClass.ofBits f.op = c at hdefined hport hdata ⊢
  cases c with
  | wr => exact ⟨writeOf _ _, writeOf_fields _ _⟩
  | rd => rw [hdata rfl]; exact ⟨readOf _, readOf_fields _⟩
  | dbg => rw [hdata rfl]; exact ⟨debugOf _, debugOf_fields _⟩
  | tick => rw [hport rfl, hdata rfl]; exact ⟨.tick, rfl⟩
  | reset => rw [hport rfl, hdata rfl]; exact ⟨.reset, rfl⟩
  | ackNmi => rw [hport rfl, hdata rfl]; exact ⟨.ackNmi, rfl⟩
  | ackFrame => rw [hport rfl, hdata rfl]; exact ⟨.ackFrame, rfl⟩
  | reserved => exact absurd rfl hdefined

/-! ### The decoder's branches (rule R94) -/

@[simp] theorem decodeFields_fields (i : Instr) : decodeFields i.fields = .ok i := by
  rw [← decode_toWord]
  exact decode_encode i

theorem decodeFields_of_rsv_ne_zero {f : HostFields} (hrsv : f.rsv ≠ 0#2) : decodeFields f = .error .reservedBits :=
  if_pos hrsv

theorem decodeFields_of_op_reserved {f : HostFields} (hrsv : f.rsv = 0#2) (hop : f.op = 7#3) :
    decodeFields f = .error .reservedOp := by
  simp [decodeFields, hrsv, HostClass.ofBits_eq_reserved_iff.2 hop]

theorem requireNoData_of_data_ne_zero {f : HostFields} (h : f.data ≠ 0#8) (i : Instr) :
    requireNoData f i = .error .nonzeroUnusedField :=
  if_neg h

theorem requireNoPortNoData_of_ne_zero {f : HostFields} (h : f.port ≠ 0#3 ∨ f.data ≠ 0#8) (i : Instr) :
    requireNoPortNoData f i = .error .nonzeroUnusedField :=
  if_neg (not_and_or.2 h)

/-- A set bit in a field that the class does not use is refused, whichever the class. -/
theorem decodeFields_of_unused_ne_zero {f : HostFields} (hrsv : f.rsv = 0#2) (hop : f.op ≠ 7#3)
    (hunused : (HostClass.ofBits f.op).usesPort = false ∧ f.port ≠ 0#3 ∨
      (HostClass.ofBits f.op).usesData = false ∧ f.data ≠ 0#8) :
    decodeFields f = .error .nonzeroUnusedField := by
  rw [decodeFields, if_neg (not_not.2 hrsv)]
  have hdefined := mt HostClass.ofBits_eq_reserved_iff.1 hop
  generalize HostClass.ofBits f.op = c at hdefined hunused ⊢
  cases c <;> simp only [HostClass.usesPort, HostClass.usesData, true_and, false_and, or_false, false_or,
    reduceCtorEq] at hunused
  case rd | dbg => exact requireNoData_of_data_ne_zero hunused _
  case tick | reset | ackNmi | ackFrame => exact requireNoPortNoData_of_ne_zero hunused _
  case reserved => exact absurd rfl hdefined

/-- The decoder accepts well-formed fields only. -/
theorem wellFormed_of_decodeFields_eq_ok {f : HostFields} {i : Instr} (h : decodeFields f = .ok i) :
    f.wellFormed = true := by
  by_cases hrsv : f.rsv = 0#2
  case neg => simp [decodeFields_of_rsv_ne_zero hrsv] at h
  by_cases hop : f.op = 7#3
  case pos => simp [decodeFields_of_op_reserved hrsv hop] at h
  by_contra hnot
  refine absurd (decodeFields_of_unused_ne_zero hrsv hop ?_) (by simp [h])
  rw [HostFields.wellFormed_iff] at hnot
  tauto

/-- The decoder answers an operation exactly on that operation's fields. -/
theorem decodeFields_eq_ok_iff {f : HostFields} {i : Instr} : decodeFields f = .ok i ↔ i.fields = f := by
  refine ⟨fun h => ?_, fun h => h ▸ decodeFields_fields i⟩
  obtain ⟨j, rfl⟩ := HostFields.exists_fields_of_wellFormed (wellFormed_of_decodeFields_eq_ok h)
  rw [decodeFields_fields, Except.ok.injEq] at h
  rw [h]

/-- A word decodes to an operation exactly when it is that operation's word. -/
theorem decode_eq_ok_iff {w : HostWord} {i : Instr} : decode w = .ok i ↔ encode i = w := by
  refine ⟨fun h => ?_, fun h => h ▸ decode_encode i⟩
  rw [encode, decodeFields_eq_ok_iff.1 h, HostFields.toWord_ofWord]

/-- Settles O1: an operation's word is the only one that decodes to it. -/
theorem decodeEncodeAgree : Obligations.DecodeEncodeAgree :=
  ⟨fun i => ⟨i.wellFormed_eq_true, decode_encode i⟩, fun _ _ => decode_eq_ok_iff.1⟩

/-- Settles O2, branch by branch on the fields of the word; an accepted word's fields are well-formed. -/
theorem decoderFollowsItsBranches : Obligations.DecoderFollowsItsBranches := by
  intro w op rsv port data
  refine ⟨fun hrsv => decodeFields_of_rsv_ne_zero hrsv, fun hrsv hop => decodeFields_of_op_reserved hrsv hop,
    fun hrsv hcontrol hset => ?control, fun hrsv hread hset => ?read, fun hrsv hop hcontrol hread => ?accepted⟩
  case control =>
    have hop : op ≠ 7#3 := by intro h; simp [h] at hcontrol
    refine decodeFields_of_unused_ne_zero hrsv hop (hset.imp (.intro ?_) (.intro ?_))
    · exact (HostClass.usesPort_ofBits_eq_false_iff hop).2 hcontrol
    · exact (HostClass.usesData_ofBits_eq_false_iff hop).2 (.inr hcontrol)
  case read =>
    have hop : op ≠ 7#3 := by intro h; simp [h] at hread
    exact decodeFields_of_unused_ne_zero hrsv hop
      (.inr ⟨(HostClass.usesData_ofBits_eq_false_iff hop).2 (.inl hread), hset⟩)
  case accepted =>
    have hwf : (HostFields.ofWord w).wellFormed = true := by
      refine HostFields.wellFormed_iff.2 ⟨hrsv, hop, fun h => ?_, fun h => ?_⟩
      · exact (hcontrol ((HostClass.usesPort_ofBits_eq_false_iff hop).1 h)).1
      · exact ((HostClass.usesData_ofBits_eq_false_iff hop).1 h).elim hread fun h => (hcontrol h).2
    obtain ⟨i, hi⟩ := HostFields.exists_fields_of_wellFormed hwf
    exact ⟨i, decodeFields_eq_ok_iff.2 hi, by rw [hi, ← hrsv]; rfl⟩

/-- Settles O3, by running the decoder on each word. -/
theorem writtenWordsDecode : Obligations.WrittenWordsDecode := by
  unfold Obligations.WrittenWordsDecode
  decide

end Sys2Proof
end

section
/-! PROOFS. The register ports (rules R113 to R119, R121 to R136): what each write and read leaves in the registers, two
data reads in a row, and that no port moves the raster. -/

namespace Sys2Proof.Machine

/-! ### The split data byte and the staged address, as bits and numbers (rules R24, R93, R113, R119, R123) -/

theorem scrollFine_toNat (d : Byte) : (scrollFine d).toNat = d.toNat % 8 := by
  rw [scrollFine, BitVec.extractLsb'_toNat, Nat.shiftRight_zero]

theorem scrollCoarse_toNat (d : Byte) : (scrollCoarse d).toNat = d.toNat / 8 := by
  have hd := d.isLt
  rw [scrollCoarse, BitVec.extractLsb'_toNat, Nat.shiftRight_eq_div_pow]
  omega

/-- CTRL replaces the two nametable fields of `t` (rule R113). -/
theorem ctrlIntoT_eq (t : CompositeAddr) (d : Byte) :
    ctrlIntoT t d = compositeAddr (fineY t) (ctrlNtY d) (ctrlNtX d) (coarseY t) (coarseX t) := by
  rw [ctrlIntoT, setNtY, fineY_setNtX, ntX_setNtX, coarseY_setNtX, coarseX_setNtX]

theorem getLsbD_ctrlIntoT (t : CompositeAddr) (d : Byte) (i : Nat) :
    (ctrlIntoT t d).getLsbD i =
      if i = 10 then d.getLsbD 0 else if i = 11 then d.getLsbD 1 else t.getLsbD i := by
  rw [ctrlIntoT_eq, getLsbD_compositeAddr]
  by_cases h10 : i = 10
  · subst h10; simp [ctrlNtX, bitField]
  by_cases h11 : i = 11
  · subst h11; simp [ctrlNtY, bitField]
  conv_rhs => rw [if_neg h10, if_neg h11, ← compositeAddr_eta t, getLsbD_compositeAddr]
  simp only [show i < 11 ↔ i < 10 by omega, show i < 12 ↔ i < 10 by omega]
  split_ifs <;> rfl

/-- The second write puts the byte under the high seven bits of `t`. -/
theorem addrLow_eq (t : CompositeAddr) (d : Byte) : addrLow t d = t.extractLsb' 8 7 ++ d := by
  refine BitVec.eq_of_getLsbD_eq fun i hi => ?_
  have hhigh : (0x7F00#15).getLsbD i = decide (8 ≤ i) := by revert i; decide
  rw [addrLow, BitVec.getLsbD_or, BitVec.getLsbD_and, hhigh, BitVec.getLsbD_append, BitVec.getLsbD_setWidth,
    BitVec.getLsbD_extractLsb']
  by_cases h : i < 8
  · simp [h, hi]
  · simp [h, hi, show 8 ≤ i by omega, show i - 8 < 7 by omega, show 8 + (i - 8) = i by omega]

theorem getLsbD_statusComposite (st low : Byte) (i : Nat) :
    (statusComposite st low).getLsbD i = if 5 ≤ i then st.getLsbD i else low.getLsbD i := by
  by_cases hi : i < 8
  · have hflags : (0xE0#8).getLsbD i = decide (5 ≤ i) := by revert i; decide
    have hlow : (0x1F#8).getLsbD i = !decide (5 ≤ i) := by revert i; decide
    rw [statusComposite, BitVec.getLsbD_or, BitVec.getLsbD_and, BitVec.getLsbD_and, hflags, hlow]
    split <;> simp [*]
  · simp [show 8 ≤ i by omega, show 5 ≤ i by omega]

theorem getLsbD_clearVblank (st : Byte) (i : Nat) :
    (clearVblank st).getLsbD i = if i = 7 then false else st.getLsbD i := by
  by_cases hi : i < 8
  · have hkept : (0x7F#8).getLsbD i = !decide (i = 7) := by revert i; decide
    rw [clearVblank, BitVec.getLsbD_and, hkept]
    split <;> simp [*]
  · simp [show 8 ≤ i by omega]

/-- The first write of an address pair as a number: bit 14 becomes 0 (rule R119). -/
theorem addrHigh_toNat (t : CompositeAddr) (d : Byte) :
    (addrHigh t d).toNat = 256 * (d.toNat % 64) + t.toNat % 256 := by
  have hd : (d &&& 0x3F#8).toNat = d.toNat % 2 ^ 6 := by
    rw [BitVec.toNat_and]; exact Nat.and_two_pow_sub_one_eq_mod _ 6
  have ht : (t &&& 0x00FF#15).toNat = t.toNat % 2 ^ 8 := by
    rw [BitVec.toNat_and]; exact Nat.and_two_pow_sub_one_eq_mod _ 8
  have hhigh : ((d &&& 0x3F#8).setWidth 15 <<< 8).toNat = (d.toNat % 2 ^ 6) <<< 8 := by
    rw [BitVec.toNat_shiftLeft, BitVec.toNat_setWidth, hd, Nat.shiftLeft_eq, Nat.shiftLeft_eq]
    omega
  rw [addrHigh, BitVec.toNat_or, hhigh, ht, ← Nat.shiftLeft_add_eq_or_of_lt (Nat.mod_lt _ (by decide)),
    Nat.shiftLeft_eq, Nat.mul_comm]
  rfl

theorem addrLow_toNat (t : CompositeAddr) (d : Byte) : (addrLow t d).toNat = 256 * (t.toNat / 256) + d.toNat := by
  have ht := t.isLt
  rw [addrLow_eq, BitVec.toNat_append, ← Nat.shiftLeft_add_eq_or_of_lt d.isLt, BitVec.extractLsb'_toNat,
    Nat.shiftRight_eq_div_pow, Nat.shiftLeft_eq]
  omega

/-! ### Port writes (rules R113 to R119) -/

/-- Settles O13, from the bits of `t` with the two nametable fields replaced. -/
theorem wrCtrlResult : Obligations.WrCtrlResult := fun d s =>
  ⟨_, exec_noMapper rfl, rfl, getLsbD_ctrlIntoT s.bank.t d, rfl⟩

/-- Settles O14: none of the three needs a mapper, and each effect is the register's update. -/
theorem plainRegisterWrites : Obligations.PlainRegisterWrites := fun _ _ =>
  ⟨exec_noMapper rfl, exec_noMapper rfl, exec_noMapper rfl⟩

/-- The OAM cursor moves on modulo 256 (rule R30). -/
theorem oamAddr_succ_toNat (a : Byte) : (a + 1#8).toNat = (a.toNat + 1) % 256 := BitVec.toNat_add a 1#8

/-- Settles O15: the store is a write to the OAM memory at the cursor. -/
theorem wrOamdataResult : Obligations.WrOamdataResult := fun d s =>
  ⟨_, exec_noMapper rfl, storedByte_write .oam s.mem.oam _ d, oamAddr_succ_toNat _, rfl⟩

theorem exec_wrScroll_first {s : State} (hw : s.bank.w = false) (d : Byte) :
    exec (.wrScroll d) s = .next (scrollFirst d s) := by
  rw [exec_noMapper rfl, effectOf, hw]; rfl

theorem exec_wrScroll_second {s : State} (hw : s.bank.w = true) (d : Byte) :
    exec (.wrScroll d) s = .next (scrollSecond d s) := by
  rw [exec_noMapper rfl, effectOf, hw]; rfl

/-- Settles O16, by the toggle: each half writes fields of `t` and keeps the others (rule R25). -/
theorem wrScrollResult : Obligations.WrScrollResult := by
  intro d s
  refine ⟨fun hw => ⟨_, exec_wrScroll_first hw d, ?first⟩, fun hw => ⟨_, exec_wrScroll_second hw d, ?second⟩⟩
  case first => simp [scrollFirst, scrollFine_toNat, scrollCoarse_toNat]
  case second => simp [scrollSecond, scrollFine_toNat, scrollCoarse_toNat]

theorem exec_wrAddr_first {s : State} (hw : s.bank.w = false) (d : Byte) :
    exec (.wrAddr d) s = .next (addrFirst d s) := by
  rw [exec_noMapper rfl, effectOf, hw]; rfl

theorem exec_wrAddr_second {s : State} (hw : s.bank.w = true) (d : Byte) :
    exec (.wrAddr d) s = .next (addrSecond d s) := by
  rw [exec_noMapper rfl, effectOf, hw]; rfl

/-- Settles O17, by the toggle: each half of the pair as a number. -/
theorem wrAddrResult : Obligations.WrAddrResult := fun d s =>
  ⟨fun hw => ⟨_, exec_wrAddr_first hw d, addrHigh_toNat s.bank.t d, rfl, rfl⟩,
    fun hw => ⟨_, exec_wrAddr_second hw d, addrLow_toNat s.bank.t d, rfl, rfl, rfl⟩⟩

/-! ### Port reads (rules R121 to R136) -/

/-- Each of the ten draw ports gives the driver a draw, and none needs a mapper (log entry 2). -/
theorem exec_drawPort {i : Instr} (hi : i ∈ drawPorts) (s : State) : exec i s = .next s.giveBackDraw := by
  simp only [drawPorts, List.mem_cons, List.not_mem_nil, or_false] at hi
  rcases hi with rfl | rfl | rfl | rfl | rfl | rfl | rfl | rfl | rfl | rfl
  all_goals exact exec_noMapper rfl

/-- Settles O19, port by port. -/
theorem drawPortsChangeNothing : Obligations.DrawPortsChangeNothing := fun s _ hi => exec_drawPort hi s

/-- Settles O20, from the bits of the composite and of the cleared STATUS. -/
theorem rdStatusResult : Obligations.RdStatusResult := by
  intro s
  refine ⟨_, statusComposite s.bank.status s.statusLow, exec_noMapper rfl, fun i => ?composite,
    getLsbD_clearVblank s.bank.status, rfl⟩
  case composite =>
    rw [getLsbD_statusComposite, State.statusLow]
    cases s.statusLowSource <;> rfl

/-- Settles O21: the cursor moves as in the write (rule R125). -/
theorem rdOamdataResult : Obligations.RdOamdataResult := fun _ =>
  ⟨_, exec_noMapper rfl, rfl, oamAddr_succ_toNat _, rfl⟩

/-- Settles O24: the effect of each is to give the register back. -/
theorem debugReadsReturnRegisters : Obligations.DebugReadsReturnRegisters := fun _ =>
  ⟨exec_noMapper rfl, exec_noMapper rfl, exec_noMapper rfl⟩

/-- A data read below the palette range returns the read buffer (rule R128). -/
theorem readDataPort_returned_buffered {s : State} (hv : s.bank.v.toNat % 0x4000 < 0x3F00) :
    (readDataPort s).returned = s.bank.readBuffer :: s.returned := by
  rw [readDataPort_eq, ← dataResult_buffered hv (s.readValue (ppuAddr (busOf s.bank.v)))]

/-- A data read leaves the byte that it fetched in the read buffer (rule R128). -/
theorem readDataPort_readBuffer (s : State) :
    (readDataPort s).bank.readBuffer = s.readValue (ppuAddr (busOf s.bank.v)) := by
  rw [readDataPort_eq]

theorem readDataPort_attached (s : State) : (readDataPort s).mapper.attached = s.mapper.attached := by
  rw [readDataPort_eq]; rfl

/-- Settles O23: the second read returns the buffer that the first one filled. -/
theorem readBufferDelaysByOneRead : Obligations.ReadBufferDelaysByOneRead := by
  intro s hm hv
  refine ⟨readDataPort s, exec_attached .rdData hm, readDataPort_returned_buffered hv, fun hv₁ => ?_⟩
  have hm₁ : (readDataPort s).mapper.attached = true := (readDataPort_attached s).trans hm
  refine ⟨readDataPort (readDataPort s), exec_attached .rdData hm₁, ?_⟩
  rw [readDataPort_returned_buffered hv₁, readDataPort_readBuffer, readDataPort_returned_buffered hv]

/-! ### The raster (rules R110, R257) -/

/-- ACK_FRAME clears the frame signal; every other operation but TICK and RESET keeps it. -/
theorem effectOf_frameComplete {i : Instr} (ht : i ≠ .tick) (hr : i ≠ .reset) (s : State) :
    (i = .ackFrame ∧ (effectOf i s).timing.frameComplete = false) ∨
      (effectOf i s).timing.frameComplete = s.timing.frameComplete := by
  cases i
  case tick => exact absurd rfl ht
  case reset => exact absurd rfl hr
  case ackFrame => exact .inl ⟨rfl, rfl⟩
  case wrScroll d => rw [effectOf_wrScroll]; exact .inr rfl
  case wrAddr d => rw [effectOf_wrAddr]; exact .inr rfl
  case rdData => rw [effectOf, readDataPort_eq]; exact .inr rfl
  all_goals exact .inr rfl

/-- Settles O52, from what the operations but TICK and RESET keep. -/
theorem onlyTickAndResetMoveTheRaster : Obligations.OnlyTickAndResetMoveTheRaster := by
  intro i s t hexec ht hr
  obtain rfl := exec_next hexec
  have k := effectOf_portKept ht hr s
  exact ⟨k.scanline, k.dot, k.oddFrame, (effectOf_frameComplete ht hr s).resolve_right⟩

end Sys2Proof.Machine
end

section
/-! PROOFS. The background pipeline's arithmetic (rules R162 to R171): the increments of `v` field by field, the shifters
bit by bit, and the fetch addresses as numbers. -/

namespace Sys2Proof.Machine

/-! ### `IncX` (rule R170) -/

section Increments

variable {v : CompositeAddr}

theorem incCoarseX_of_eq_31 (h : (coarseX v).toNat = 31) :
    incCoarseX v = setNtX (setCoarseX v 0#5) (~~~ntX v) :=
  if_pos (BitVec.eq_of_toNat_eq h)

theorem incCoarseX_of_ne_31 (h : (coarseX v).toNat ≠ 31) : incCoarseX v = setCoarseX v (coarseX v + 1#5) :=
  if_neg fun e => h (congrArg BitVec.toNat e)

/-- `IncX` keeps the vertical fields. -/
theorem vertical_incCoarseX (v : CompositeAddr) :
    coarseY (incCoarseX v) = coarseY v ∧ ntY (incCoarseX v) = ntY v ∧ fineY (incCoarseX v) = fineY v := by
  unfold incCoarseX
  split <;> simp

/-- A coarse field that is not at its end moves on by one. -/
theorem toNat_succ_of_ne_31 {x : BitVec 5} (h : x.toNat ≠ 31) : (x + 1#5).toNat = x.toNat + 1 :=
  BitVec.toNat_add_of_lt (by have := x.isLt; simp only [BitVec.toNat_ofNat]; omega)

/-! ### `IncY` (rules R171, R172) -/

theorem incFineY_of_lt_7 (h : (fineY v).toNat < 7) : incFineY v = setFineY v (fineY v + 1#3) :=
  if_pos fun e => absurd (congrArg BitVec.toNat e) (Nat.ne_of_lt h)

/-- At fine Y 7, coarse Y wraps at 29 with a flip, wraps at 31 without one, and moves on elsewhere. -/
theorem incFineY_of_eq_7 (h : (fineY v).toNat = 7) :
    incFineY v =
      if coarseY v = 29#5 then setNtY (setCoarseY (setFineY v 0#3) 0#5) (~~~ntY v)
      else if coarseY v = 31#5 then setCoarseY (setFineY v 0#3) 0#5
      else setCoarseY (setFineY v 0#3) (coarseY v + 1#5) :=
  if_neg (not_not.2 (BitVec.eq_of_toNat_eq h))

theorem incFineY_of_coarseY_29 (h : (fineY v).toNat = 7) (hy : (coarseY v).toNat = 29) :
    incFineY v = setNtY (setCoarseY (setFineY v 0#3) 0#5) (~~~ntY v) :=
  (incFineY_of_eq_7 h).trans (if_pos (BitVec.eq_of_toNat_eq hy))

theorem incFineY_of_coarseY_31 (h : (fineY v).toNat = 7) (hy : (coarseY v).toNat = 31) :
    incFineY v = setCoarseY (setFineY v 0#3) 0#5 := by
  have hy' : coarseY v = 31#5 := BitVec.eq_of_toNat_eq hy
  rw [incFineY_of_eq_7 h, hy', if_neg (by decide), if_pos rfl]

theorem incFineY_of_coarseY_next (h : (fineY v).toNat = 7) (h29 : (coarseY v).toNat ≠ 29)
    (h31 : (coarseY v).toNat ≠ 31) : incFineY v = setCoarseY (setFineY v 0#3) (coarseY v + 1#5) := by
  rw [incFineY_of_eq_7 h, if_neg fun e => h29 (congrArg BitVec.toNat e), if_neg fun e => h31 (congrArg BitVec.toNat e)]

/-- `IncY` keeps the horizontal fields. -/
theorem horizontal_incFineY (v : CompositeAddr) :
    coarseX (incFineY v) = coarseX v ∧ ntX (incFineY v) = ntX v := by
  unfold incFineY
  repeat' split
  all_goals simp

/-- Fine Y becomes 0 when it leaves 7. -/
theorem fineY_incFineY_of_eq_7 (h : (fineY v).toNat = 7) : fineY (incFineY v) = 0#3 := by
  rw [incFineY_of_eq_7 h]
  repeat' split
  all_goals simp

end Increments

/-! ### The gate of the actions on `v` (decision D20) -/

theorem incX_disabled {s : State} (h : s.renderingEnabled = false) : s.incX = s := if_neg (Bool.eq_false_iff.1 h)

theorem incX_enabled {s : State} (h : s.renderingEnabled = true) :
    s.incX = { s with bank.v := incCoarseX s.bank.v } := if_pos h

theorem incY_disabled {s : State} (h : s.renderingEnabled = false) : s.incY = s := if_neg (Bool.eq_false_iff.1 h)

theorem incY_enabled {s : State} (h : s.renderingEnabled = true) :
    s.incY = { s with bank.v := incFineY s.bank.v } := if_pos h

/-- Settles O36, by whether coarse X is at its end. -/
theorem incXRule : Obligations.IncXRule := by
  refine fun s => ⟨incX_disabled, fun hr => ?_⟩
  obtain ⟨hcy, hny, hfy⟩ := vertical_incCoarseX s.bank.v
  rw [incX_enabled hr]
  refine ⟨rfl, hcy, hny, hfy, fun h => ?wrap, fun h => ?next⟩
  case wrap => simp [incCoarseX_of_eq_31 h]
  case next => simp only [incCoarseX_of_ne_31 h, coarseX_setCoarseX, ntX_setCoarseX, toNat_succ_of_ne_31 h, and_self]

/-- Settles O37, by fine Y and then by coarse Y. -/
theorem incYRule : Obligations.IncYRule := by
  refine fun s => ⟨incY_disabled, fun hr => ?_⟩
  obtain ⟨hcx, hnx⟩ := horizontal_incFineY s.bank.v
  rw [incY_enabled hr]
  refine ⟨rfl, hcx, hnx, fun hfy => ?fine,
    fun hfy => ⟨?zero, fun hcy => ?wrap29, fun hcy => ?wrap31, fun h29 h31 => ?next⟩⟩
  case fine =>
    have hsucc : (fineY s.bank.v + 1#3).toNat = (fineY s.bank.v).toNat + 1 :=
      BitVec.toNat_add_of_lt (by simp only [BitVec.toNat_ofNat]; omega)
    simp [incFineY_of_lt_7 hfy, hsucc]
  case zero => rw [fineY_incFineY_of_eq_7 hfy]; rfl
  case wrap29 => simp [incFineY_of_coarseY_29 hfy hcy]
  case wrap31 => simp [incFineY_of_coarseY_31 hfy hcy]
  case next =>
    simp only [incFineY_of_coarseY_next hfy h29 h31, coarseY_setCoarseY, ntY_setCoarseY, ntY_setFineY,
      toNat_succ_of_ne_31 h31, and_self]

/-! ### The shifters (rules R162, R164) -/

/-- The shift of one shifter: every bit moves up, and a zero enters bit 0. -/
theorem getLsbD_shiftLeft_one (x : BitVec 16) {i : Nat} (hi : i < 16) :
    (x <<< 1).getLsbD i = if i = 0 then false else x.getLsbD (i - 1) := by
  by_cases h : i = 0 <;> simp [-BitVec.getLsbD_eq_getElem, BitVec.getLsbD_shiftLeft, hi, h]

/-- The reload of one shifter with a low byte: the high byte is kept. -/
theorem getLsbD_reload (x y : BitVec 16) (hy : ∀ i, 8 ≤ i → y.getLsbD i = false) {i : Nat} (hi : i < 16) :
    ((x &&& 0xFF00#16) ||| y).getLsbD i = if i < 8 then y.getLsbD i else x.getLsbD i := by
  have hhigh : (0xFF00#16).getLsbD i = decide (8 ≤ i) := by revert i; decide
  rw [BitVec.getLsbD_or, BitVec.getLsbD_and, hhigh]
  by_cases h : i < 8
  · simp [h]
  · simp [h, hy i (Nat.le_of_not_lt h), Nat.le_of_not_lt h]

theorem getLsbD_reload_latch (x : BitVec 16) (b : Byte) {i : Nat} (hi : i < 16) :
    ((x &&& 0xFF00#16) ||| b.setWidth 16).getLsbD i = if i < 8 then b.getLsbD i else x.getLsbD i := by
  rw [getLsbD_reload x _ (fun j hj => by simp [hj]) hi]
  simp [hi]

/-- A widened bit fills a low byte (rule R164, decision D23). -/
theorem getLsbD_widenAttr (b : Bool) (i : Nat) : (widenAttr b).getLsbD i = (b && decide (i < 8)) := by
  cases b
  case false => simp [widenAttr]
  case true =>
    rw [Bool.true_and]
    exact Nat.testBit_two_pow_sub_one 8 i

theorem getLsbD_reload_attr (x : BitVec 16) (b : Bool) {i : Nat} (hi : i < 16) :
    ((x &&& 0xFF00#16) ||| widenAttr b).getLsbD i = if i < 8 then b else x.getLsbD i := by
  rw [getLsbD_reload x _ (fun j hj => by simp [getLsbD_widenAttr, hj]) hi]
  by_cases h : i < 8 <;> simp [-BitVec.getLsbD_eq_getElem, getLsbD_widenAttr, h]

/-- Settles O39, one shifter at a time. -/
theorem shiftAndLoadRules : Obligations.ShiftAndLoadRules := fun _ =>
  ⟨⟨rfl, rfl, rfl, rfl⟩, ⟨rfl, rfl, rfl, rfl⟩, fun _ hi =>
    ⟨getLsbD_shiftLeft_one _ hi, getLsbD_shiftLeft_one _ hi, getLsbD_shiftLeft_one _ hi, getLsbD_shiftLeft_one _ hi,
      getLsbD_reload_latch _ _ hi, getLsbD_reload_latch _ _ hi, getLsbD_reload_attr _ _ hi,
      getLsbD_reload_attr _ _ hi⟩⟩

/-! ### The fetch addresses (rules R165 to R169) -/

theorem tileIdAddr_toNat (v : CompositeAddr) : (tileIdAddr v).toNat = 0x2000 + v.toNat % 0x1000 := by
  have hlow : (busOf v &&& 0x0FFF#16).toNat = v.toNat % 2 ^ 12 := by
    rw [BitVec.toNat_and, busOf_toNat]
    exact Nat.and_two_pow_sub_one_eq_mod _ 12
  rw [tileIdAddr, BitVec.toNat_or, hlow]
  exact (Nat.two_pow_add_eq_or_of_lt (Nat.mod_lt v.toNat (Nat.two_pow_pos 12)) 2).symm

theorem bgPatternAddr_toNat (bank : BitVec 1) (id : Byte) (fy : BitVec 3) :
    (bgPatternAddr bank id fy).toNat = 0x1000 * bank.toNat + 16 * id.toNat + fy.toNat := by
  have hbank := bank.isLt
  have hid := id.isLt
  have hfy := fy.isLt
  simp only [bgPatternAddr, BitVec.toNat_add, BitVec.toNat_shiftLeft, BitVec.toNat_setWidth, Nat.shiftLeft_eq]
  omega

/-- Settles O41: the fields of each address do not overlap, so they add up. -/
theorem backgroundFetchAddresses : Obligations.BackgroundFetchAddresses := by
  refine ⟨tileIdAddr_toNat, fun bank id fy => ?_⟩
  have hlo := bgPatternAddr_toNat bank id fy
  have hbank := bank.isLt
  have hid := id.isLt
  have hfy := fy.isLt
  have hhi : (bgPatternAddr bank id fy + 8#16).toNat = (bgPatternAddr bank id fy).toNat + 8 :=
    BitVec.toNat_add_of_lt (by rw [hlo, BitVec.toNat_ofNat]; omega)
  exact ⟨hlo, by rw [hhi, hlo], by rw [hhi, hlo]; omega⟩

/-- The address of rule R166 as its fields in a row. -/
theorem attrAddr_eq_append (v : CompositeAddr) :
    attrAddr v = 2#4 ++ ntY v ++ ntX v ++ 15#4 ++ (coarseY v).extractLsb' 2 3 ++ (coarseX v).extractLsb' 2 3 := by
  refine BitVec.eq_of_getLsbD_eq (w := 4 + 1 + 1 + 4 + 3 + 3) fun i hi => ?_
  simp only [BitVec.getLsbD_append, attrAddr, BitVec.getLsbD_or]
  interval_cases i <;> simp

theorem toNat_append_add {m n : Nat} (x : BitVec m) (y : BitVec n) : (x ++ y).toNat = 2 ^ n * x.toNat + y.toNat := by
  rw [BitVec.toNat_append, ← Nat.shiftLeft_add_eq_or_of_lt y.isLt, Nat.shiftLeft_eq, Nat.mul_comm]

theorem attrAddr_toNat (v : CompositeAddr) :
    (attrAddr v).toNat = 0x23C0 + 0x800 * (ntY v).toNat + 0x400 * (ntX v).toNat + 8 * ((coarseY v).toNat / 4)
      + (coarseX v).toNat / 4 := by
  have hcy := (coarseY v).isLt
  have hcx := (coarseX v).isLt
  rw [attrAddr_eq_append]
  simp only [toNat_append_add, BitVec.extractLsb'_toNat, Nat.shiftRight_eq_div_pow, BitVec.toNat_ofNat]
  omega

/-- The formula on the bits of `v` (inference of rule R166). -/
theorem attrAddr_eq_of_bits (v : CompositeAddr) :
    attrAddr v = 0x23C0#16 ||| (busOf v &&& 0x0C00#16) ||| ((busOf v >>> 4) &&& 0x38#16)
      ||| ((busOf v >>> 2) &&& 0x07#16) := by
  refine BitVec.eq_of_getLsbD_eq fun i hi => ?_
  interval_cases i <;> simp [attrAddr, busOf, ntX, ntY, coarseX, coarseY]

theorem getLsbD_one_eq_decide (x : BitVec 5) : x.getLsbD 1 = decide (x.toNat / 2 % 2 = 1) :=
  Nat.testBit_eq_decide_div_mod_eq

/-- The quadrant is the base-4 digit of the fetched byte that the two bits number (rule R167). -/
theorem attrQuadrant_toNat (v : CompositeAddr) (b : Byte) :
    (attrQuadrant v b).toNat = b.toNat / 4 ^ ((coarseX v).toNat / 2 % 2 + 2 * ((coarseY v).toNat / 2 % 2)) % 4 := by
  rw [attrQuadrant, getLsbD_one_eq_decide, getLsbD_one_eq_decide]
  rcases Nat.mod_two_eq_zero_or_one ((coarseX v).toNat / 2) with hx | hx <;>
    rcases Nat.mod_two_eq_zero_or_one ((coarseY v).toNat / 2) with hy | hy <;>
    simp [hx, hy, BitVec.extractLsb'_toNat, Nat.shiftRight_eq_div_pow]

/-- Settles O42, from the address as its fields in a row and the quadrant as a digit. -/
theorem attributeAddressAndQuadrant : Obligations.AttributeAddressAndQuadrant := fun v b =>
  ⟨attrAddr_toNat v, attrAddr_eq_of_bits v, attrQuadrant_toNat v b⟩

end Sys2Proof.Machine
end

section
/-! PROOFS. A TICK as a whole, seen from the background: where the raster goes, when `v` moves, what the pipeline fetches,
what scanlines 240 to 260 leave alone, and which TICKs are stuck without a mapper. -/

namespace Sys2Proof.Machine

/-! ### The dot that a TICK processes, and the raster after it (rules R242, R246 to R248) -/

theorem oddFrameSkip_dot_of_skipsDot {s : State} (h : s.SkipsDot) : s.oddFrameSkip.timing.dot = 1 :=
  congrArg (fun t : State => t.timing.dot) (if_pos h)

/-- The dot that a TICK processes is the one after the skip. -/
theorem State.processes_iff {s : State} {d : Nat} : s.Processes d ↔ d = s.oddFrameSkip.timing.dot := by
  by_cases h : s.SkipsDot
  · simp [State.Processes, h, oddFrameSkip_dot_of_skipsDot h]
  · simp [State.Processes, h, oddFrameSkip_of_not_skipsDot h]

/-- Off scanline 0 nothing is skipped. -/
theorem State.not_skipsDot_of_scanline {s : State} (h : s.timing.scanline ≠ 0) : ¬ s.SkipsDot := fun ⟨h0, _⟩ => h h0

@[simp] theorem oddFrameSkip_scanline (s : State) : s.oddFrameSkip.timing.scanline = s.timing.scanline := by
  rw [oddFrameSkip_eq]

@[simp] theorem oddFrameSkip_bank (s : State) : s.oddFrameSkip.bank = s.bank := by rw [oddFrameSkip_eq]

/-- The advance from a state at dot `d` of the raster of `s`, where the compositor left the back buffer alone. -/
theorem advance_advancesPast {s u : State} (hline : u.timing.scanline = s.timing.scanline)
    (hcomplete : u.timing.frameComplete = s.timing.frameComplete) (hodd : u.timing.oddFrame = s.timing.oddFrame)
    (hfront : u.front = s.front) (hback : 260 ≤ s.timing.scanline → u.back = s.back) :
    s.AdvancesPast u.advance u.timing.dot := by
  rw [advance_eq]
  refine ⟨fun hd => ?sameLine, fun hd hl => ?nextLine, fun hd hl => ?wrap⟩
  case sameLine => rw [if_pos hd]; exact ⟨rfl, hline, hcomplete, hodd, hfront⟩
  case nextLine =>
    rw [if_neg (by omega), if_pos (by omega)]
    exact ⟨rfl, congrArg (· + 1) hline, hcomplete, hodd, hfront⟩
  case wrap =>
    rw [if_neg (by omega), if_neg (by omega)]
    exact ⟨rfl, rfl, rfl, congrArg (!·) hodd, hback hl, hback hl⟩

/-- A TICK advances past the dot that it processes. -/
theorem tick_advancesPast (s : State) : s.AdvancesPast s.tick s.oddFrameSkip.timing.dot := by
  have hraster := (timingEvents_kept s.oddFrameSkip.dotWork).raster
  rw [dotWork_timing] at hraster
  have hdot : s.oddFrameSkip.dotWork.timingEvents.timing.dot = s.oddFrameSkip.timing.dot := by rw [hraster]
  rw [tick_eq, ← hdot]
  refine advance_advancesPast ?line ?complete ?odd ?front fun hl => ?back
  case line => rw [hraster, oddFrameSkip_eq]
  case complete => rw [hraster, oddFrameSkip_eq]
  case odd => rw [hraster, oddFrameSkip_eq]
  case front => rw [(timingEvents_kept _).front, dotWork_front, oddFrameSkip_eq]
  case back =>
    rw [(timingEvents_kept _).back, dotWork_vblank (by rw [oddFrameSkip_scanline]; omega), oddFrameSkip_eq]

/-! ### Scanlines 240 to 260 (rules R244, R249) -/

/-- On these scanlines only the fixed-dot events and the advance are left of a TICK. -/
theorem tick_vblank {s : State} (h : 240 ≤ s.timing.scanline) : s.tick = s.timingEvents.advance := by
  rw [tick_eq, oddFrameSkip_of_not_skipsDot (State.not_skipsDot_of_scanline (by omega)), dotWork_vblank h]

theorem onRenderingLine_eq_false_of_vblank {s : State} (h : 240 ≤ s.timing.scanline) : s.onRenderingLine = false := by
  rw [← Bool.not_eq_true, onRenderingLine_iff]
  rintro ⟨-, hle⟩
  omega

/-- Rule R305 asks for no mapper there, so a TICK takes its step with or without one. -/
theorem exec_tick_vblank {s : State} (h : 240 ≤ s.timing.scanline) : exec .tick s = .next s.tick :=
  exec_keepsMapperRule (by simp [keepsMapperRule, asksForMapper, onRenderingLine_eq_false_of_vblank h])

/-- The one event of these scanlines is that of (241, 1). -/
theorem timingEvents_vblank {s : State} (h : 240 ≤ s.timing.scanline) :
    s.timingEvents = if s.timing.scanline = 241 ∧ s.timing.dot = 1 then s.vblankStart else s := by
  unfold State.timingEvents
  rw [if_neg (by omega)]
  split
  · rfl
  · exact if_neg (by simp [onRenderingLine_eq_false_of_vblank h])

/-- `VblankStart` moves STATUS and the request only, and the advance moves the raster, the frame signals and `front`. -/
theorem tick_vblank_frame {s : State} (h : 240 ≤ s.timing.scanline) :
    s.tick = { s with timing := s.tick.timing, front := s.tick.front, bank.status := s.tick.bank.status } := by
  rw [tick_vblank h, timingEvents_vblank h, advance_eq]
  repeat' split
  all_goals rfl

/-- Setting vblank sets bit 7 and no other (rule R23). -/
theorem getLsbD_setVblank (st : Byte) (i : Nat) : (setVblank st).getLsbD i = (st.getLsbD i || decide (i = 7)) := by
  have hbit : (0x80#8).getLsbD i = decide (i = 7) := by
    rw [show (0x80#8) = BitVec.twoPow 8 7 from rfl, BitVec.getLsbD_twoPow]
    simp [eq_comm]
  rw [setVblank, BitVec.getLsbD_or, hbit]

/-- Settles O30, from the one event of these scanlines. -/
theorem nothingRendersInVblank : Obligations.NothingRendersInVblank := by
  intro s h
  have hpast := tick_advancesPast s
  rw [oddFrameSkip_of_not_skipsDot (State.not_skipsDot_of_scanline (by omega))] at hpast
  refine ⟨s.tick, exec_tick_vblank h, tick_vblank_frame h, hpast, fun i => ?status, ?request⟩
  case status =>
    rw [tick_vblank h, (advance_kept _).bank, timingEvents_vblank h]
    split
    next he => simp [getLsbD_setVblank, he]
    next he => simp [he]
  case request =>
    rw [tick_vblank h, (advance_kept _).nmiPending, timingEvents_vblank h]
    split
    next he => simp [he, ctrlNmiEnable]
    next he => simp [he]

/-! ### `v` and the pipeline after a TICK -/

/-- Of the parts of a TICK only the background step moves `v`. -/
theorem tick_v (s : State) : s.tick.bank.v = s.oddFrameSkip.backgroundStep.bank.v := by
  rw [tick_eq, (advance_kept _).bank, (timingEvents_kept _).v, State.dotWork, (compositorStep_kept _).v,
    (spriteStep_kept _).v]

/-- Of the parts of a TICK only the background step moves the background pipeline. -/
theorem tick_bg (s : State) : s.tick.bg = s.oddFrameSkip.backgroundStep.bg := by
  rw [tick_eq, (advance_kept _).bg, (timingEvents_kept _).bg, State.dotWork, (compositorStep_kept _).bg,
    (spriteStep_kept _).bg]

theorem qualifyingDot_iff (d : Nat) : qualifyingDot d = true ↔ (2 ≤ d ∧ d ≤ 257) ∨ (321 ≤ d ∧ d ≤ 337) := by
  simp [qualifyingDot]

/-- Dots 0 and 1 do not move `v`. -/
theorem vAfter_of_dot_le_1 {s : State} (h : s.timing.dot ≤ 1) : s.vAfter = s.bank.v := by
  have hq : ¬(qualifyingDot s.timing.dot = true ∧ s.timing.dot % 8 = 0) := by rw [qualifyingDot_iff]; omega
  rw [State.vAfter, if_neg (by omega : s.timing.dot ≠ 256), if_neg (by omega : s.timing.dot ≠ 257), if_neg hq,
    if_neg (by omega : ¬(s.timing.scanline = -1 ∧ 280 ≤ s.timing.dot ∧ s.timing.dot ≤ 304)), ite_self]

/-- The skip goes from dot 0 to dot 1, so it makes no difference to `v`. -/
theorem vAfter_oddFrameSkip (s : State) : s.oddFrameSkip.vAfter = s.vAfter := by
  by_cases h : s.SkipsDot
  · obtain ⟨-, h0, -⟩ := id h
    rw [vAfter_of_dot_le_1 (oddFrameSkip_dot_of_skipsDot h).le, vAfter_of_dot_le_1 (by omega), oddFrameSkip_bank]
  · rw [oddFrameSkip_of_not_skipsDot h]

theorem tick_v_of_renderingLine {s : State} (h : s.RenderingLine) : s.tick.bank.v = s.vAfter := by
  have hline : s.oddFrameSkip.onRenderingLine = true := by
    rw [onRenderingLine_iff, State.RenderingLine, oddFrameSkip_scanline]; exact h
  rw [tick_v, backgroundStep_eq, if_pos hline]
  exact vAfter_oddFrameSkip s

theorem tick_v_of_not_renderingLine {s : State} (h : ¬ s.RenderingLine) : s.tick.bank.v = s.bank.v := by
  have hline : ¬ s.oddFrameSkip.onRenderingLine = true := by
    rw [onRenderingLine_iff, State.RenderingLine, oddFrameSkip_scanline]; exact h
  rw [tick_v, backgroundStep_eq, if_neg hline, oddFrameSkip_bank]

theorem vAfter_of_disabled {s : State} (h : s.renderingEnabled = false) : s.vAfter = s.bank.v := by
  simp [State.vAfter, h]

/-- The schedule of `v` with a render enable (rules R161, R170 to R175). -/
theorem vAfter_of_enabled {s : State} (h : s.renderingEnabled = true) :
    s.vAfter =
      if s.timing.dot = 256 then s.incX.incY.bank.v
      else if s.timing.dot = 257 then copyHorizontal s.bank.v s.bank.t
      else if qualifyingDot s.timing.dot ∧ s.timing.dot % 8 = 0 then s.incX.bank.v
      else if s.timing.scanline = -1 ∧ 280 ≤ s.timing.dot ∧ s.timing.dot ≤ 304 then copyVertical s.bank.v s.bank.t
      else s.bank.v := by
  have hX : s.incX.renderingEnabled = true := by rw [incX_enabled h]; exact h
  rw [State.vAfter, if_pos h, incY_enabled hX, incX_enabled h]

/-- Settles O38, dot by dot of the schedule of `v`. -/
theorem tickMovesVOnSchedule : Obligations.TickMovesVOnSchedule := by
  intro s hm
  refine ⟨s.tick, exec_attached .tick hm, fun hoff => ?off, fun hl hr => ?on⟩
  case off =>
    by_cases hl : s.RenderingLine
    · rw [tick_v_of_renderingLine hl]
      exact vAfter_of_disabled (Bool.eq_false_iff.2 fun hr => hoff ⟨hl, hr⟩)
    · exact tick_v_of_not_renderingLine hl
  case on =>
    rw [tick_v_of_renderingLine hl, vAfter_of_enabled hr]
    simp only [qualifyingDot_iff]
    refine ⟨fun hd => ?incXY, fun hd => ?incX, fun hd => ?horizontal, fun hpre hge hle => ?vertical,
      fun hinc hhor hver => ?kept⟩
    case incXY => rw [if_pos hd]
    case incX => rw [if_neg (by omega), if_neg (by omega), if_pos (by omega)]
    case horizontal => rw [if_neg (by omega), if_pos hd]; simp [copyHorizontal]
    case vertical =>
      rw [if_neg (by omega), if_neg (by omega), if_neg (by omega), if_pos ⟨hpre, hge, hle⟩]
      simp [copyVertical]
    case kept => rw [if_neg (by omega), if_neg hhor, if_neg (by omega), if_neg hver]

theorem tick_bg_of_renderingLine {s : State} (h : s.RenderingLine) (hskip : ¬ s.SkipsDot) : s.tick.bg = s.bgAfter := by
  rw [tick_bg, oddFrameSkip_of_not_skipsDot hskip, backgroundStep_eq, if_pos ((onRenderingLine_iff s).2 h)]

/-- Settles O40, phase by phase. -/
theorem tickRunsTheFetchSequence : Obligations.TickRunsTheFetchSequence := by
  intro s hm hl hskip shifted qualifying phase plane
  refine ⟨s.tick, exec_attached .tick hm, ?_⟩
  rw [tick_bg_of_renderingLine hl hskip, State.bgAfter]
  have hq : qualifyingDot s.timing.dot = true ↔ qualifying := qualifyingDot_iff _
  refine ⟨fun h hp => ?phase0, fun h hp => ?phase2, fun h hp => ?phase4, fun h hp => ?phase6, fun h hp => ?other,
    fun h => if_neg (mt hq.1 h)⟩
  all_goals rw [if_pos (hq.2 h), show (s.timing.dot - 1) % 8 = phase from rfl]
  case phase0 => rw [hp]; rfl
  case phase2 => rw [hp]; rfl
  case phase4 => rw [hp]; rfl
  case phase6 => rw [hp]; rfl
  case other => rcases hp with hp | hp | hp | hp <;> rw [hp] <;> rfl

/-! ### Stuck without a mapper (rules R271, R305) -/

theorem append_ne_nil_iff {α : Type} (l l' : List α) : l ++ l' ≠ [] ↔ l ≠ [] ∨ l' ≠ [] := by
  rw [ne_eq, List.append_eq_nil_iff, not_and_or]

theorem ite_ne_nil_iff {α : Type} {c : Prop} [Decidable c] (l : List α) :
    (if c then l else []) ≠ [] ↔ c ∧ l ≠ [] := by
  by_cases h : c <;> simp [h]

/-- A read is offered to the mapper, so the calls of reads are none only where there is no read. -/
theorem Mapper.transcript_eq_nil_iff (m : Mapper) (as : List BusAddr) : m.transcript as = [] ↔ as = [] := by
  cases as <;> simp [Mapper.transcript]

/-- The work of a TICK calls the mapper when the TICK has calls to make. -/
theorem callsMapper_tick (s : State) : s.callsMapper s.tick = true ↔ s.tickCalls ≠ [] := by
  simp [State.callsMapper, tick_trace_eq_tickCalls]

theorem scanlineCall_ne_nil_iff (s : State) :
    s.scanlineCall ≠ [] ↔
      s.RenderingLine ∧ s.timing.dot = 260 ∧ (s.bank.mask.getLsbD 3 || s.bank.mask.getLsbD 4) = true :=
  ⟨fun h => not_not.1 fun hnot => h (scanlineCall_not_due hnot),
    fun ⟨hl, hd, hr⟩ => by rw [scanlineCall_due hl hd hr]; exact List.cons_ne_nil _ _⟩

/-- The dots of a rendering scanline at which the background reads (rules R163, R174, R177). -/
def FetchDot (d : Nat) : Prop :=
  (((2 ≤ d ∧ d ≤ 257) ∨ (321 ≤ d ∧ d ≤ 337)) ∧
    ((d - 1) % 8 = 0 ∨ (d - 1) % 8 = 2 ∨ (d - 1) % 8 = 4 ∨ (d - 1) % 8 = 6)) ∨ d = 338 ∨ d = 340

theorem bgFetch_ne_nil_iff (s : State) : s.bgFetch.toList ≠ [] ↔ FetchDot s.timing.dot := by
  rw [bgFetch_toList, FetchDot]
  split_ifs <;> simp only [ne_eq, reduceCtorEq, not_false_eq_true, not_true_eq_false, true_iff, false_iff] <;> omega

/-- A TICK that does not skip reads at a fetch dot and where it draws a pixel; the slots' reads of dot 340 come with the
dummy fetch. -/
theorem tickReads_ne_nil_iff (s : State) :
    s.tickReads ≠ [] ↔
      (s.RenderingLine ∧ FetchDot s.timing.dot) ∨ (s.VisibleLine ∧ 1 ≤ s.timing.dot ∧ s.timing.dot ≤ 256) := by
  have hpixel : (s.inCompositorWindow = true ∧ s.timing.dot ≤ 256) ↔
      s.VisibleLine ∧ 1 ≤ s.timing.dot ∧ s.timing.dot ≤ 256 := by
    rw [inCompositorWindow_iff]
    exact ⟨fun ⟨⟨hv, h1, _⟩, h256⟩ => ⟨hv, h1, h256⟩, fun ⟨hv, h1, h256⟩ => ⟨⟨hv, h1, h256.trans (by decide)⟩, h256⟩⟩
  have hslots : (s.RenderingLine ∧ s.timing.dot = 340) ∧ slotNumbers.flatMap s.planes ≠ [] →
      s.RenderingLine ∧ FetchDot s.timing.dot := fun ⟨⟨hl, hd⟩, _⟩ => ⟨hl, .inr (.inr hd)⟩
  rw [tickReads_eq, append_ne_nil_iff, append_ne_nil_iff, ite_ne_nil_iff, ite_ne_nil_iff, ite_ne_nil_iff, hpixel,
    onRenderingLine_iff, bgFetch_ne_nil_iff, or_iff_left_of_imp hslots, and_iff_left (List.cons_ne_nil _ _)]

/-- The calls of a TICK are none exactly where the statements' condition on its dot fails. -/
theorem tickCalls_ne_nil_iff (s : State) : s.tickCalls ≠ [] ↔ s.TickCallsMapper s.oddFrameSkip.timing.dot := by
  have hline : s.oddFrameSkip.RenderingLine ↔ s.RenderingLine := by
    rw [State.RenderingLine, oddFrameSkip_scanline, State.RenderingLine]
  have hvisible : s.oddFrameSkip.VisibleLine ↔ s.VisibleLine := by
    rw [State.VisibleLine, oddFrameSkip_scanline, State.VisibleLine]
  rw [State.tickCalls, append_ne_nil_iff, ne_eq, Mapper.transcript_eq_nil_iff, ← ne_eq, tickReads_ne_nil_iff,
    scanlineCall_ne_nil_iff, hline, hvisible, or_assoc, ← oddFrameSkip_dot_eq_iff s (by decide)]
  rfl

/-- Only the data port and TICK can need a mapper. -/
theorem needsMapper_eq_false {i : Instr} (hrd : i ≠ .rdData) (ht : i ≠ .tick) (hwr : ∀ d, i ≠ .wrData d) (s : State) :
    needsMapper i s = false := by
  cases i
  case wrData d => exact absurd rfl (hwr d)
  case rdData => exact absurd rfl hrd
  case tick => exact absurd rfl ht
  all_goals rfl

/-- Settles O26: without a mapper a TICK is stuck where it has calls to make, and else does the work that it does with
one. -/
theorem stuckExactlyWithoutAMapper : Obligations.StuckExactlyWithoutAMapper := by
  intro s hm
  refine ⟨fun d => exec_stuck rfl hm, exec_stuck rfl hm, fun d hd => ?tick,
    fun i hrd ht hwr => ⟨_, exec_noMapper (needsMapper_eq_false hrd ht hwr s)⟩, fun i f hf => ?duty⟩
  case tick =>
    obtain rfl := State.processes_iff.1 hd
    refine ⟨fun h => exec_stuck ((callsMapper_tick s).2 ((tickCalls_ne_nil_iff s).2 h)) hm, fun h => ?_⟩
    have hnil : s.tickCalls = [] := not_not.1 (mt (tickCalls_ne_nil_iff s).1 h)
    have hcalls : needsMapper .tick s = false := Bool.eq_false_iff.2 fun hc => (callsMapper_tick s).1 hc hnil
    refine ⟨s.tick, exec_noMapper hcalls, by rw [tick_trace_eq_tickCalls, hnil]; rfl, tick_advancesPast s, ?_⟩
    rw [exec_attached .tick rfl]
    exact congrArg Host.Outcome.next (tick_blind s true)
  case duty =>
    refine Bool.eq_false_iff.2 fun hk => ?_
    rw [exec_keepsMapperRule hk] at hf
    cases hf

end Sys2Proof.Machine
end

section
/-! PROOFS. The sprite pipeline of a TICK: the fetch addresses as numbers, the visible list and its shifters at every dot,
and when the STATUS flags rise and fall. -/

namespace Sys2Proof.Machine

/-! ### The sprite fetch addresses (rules R198 to R201) -/

/-- The low bits of an integer, as a number: `BitVec.ofInt` reduces modulo a power of two that divides 16. -/
theorem ofInt_toNat_of_mod_16 (row : Int) {k : Nat} (hk : k ≤ 4) :
    (BitVec.ofInt k row).toNat = (row % 16).toNat % 2 ^ k := by
  rw [BitVec.toNat_ofInt]
  interval_cases k <;> omega

theorem spriteFine_toNat (row : Int) (attr : Byte) :
    (spriteFine row attr).toNat =
      if attr.getLsbD 7 then 7 - (row % 16).toNat % 8 else (row % 16).toNat % 8 := by
  have hrow := ofInt_toNat_of_mod_16 row (k := 3) (by decide)
  unfold spriteFine attrVFlip
  cases attr.getLsbD 7 <;> simp only [if_true, if_false, Bool.false_eq_true]
  · exact hrow
  · rw [BitVec.toNat_sub, hrow, BitVec.toNat_ofNat]
    omega

theorem spriteHalf_toNat (row : Int) (attr : Byte) :
    (spriteHalf row attr).toNat =
      if attr.getLsbD 7 then 1 - (row % 16).toNat / 8 else (row % 16).toNat / 8 := by
  have hrow := ofInt_toNat_of_mod_16 row (k := 4) le_rfl
  have hlt : BitVec.ofInt 4 row < 8#4 ↔ (row % 16).toNat < 8 := by
    rw [BitVec.lt_def, hrow, BitVec.toNat_ofNat]
    omega
  have h16 : (row % 16).toNat < 16 := by omega
  unfold spriteHalf attrVFlip
  by_cases h : (row % 16).toNat < 8
  · simp only [if_pos (hlt.2 h), Nat.div_eq_of_lt h]
    cases attr.getLsbD 7 <;> rfl
  · simp only [if_neg (mt hlt.1 h), show (row % 16).toNat / 8 = 1 by omega]
    cases attr.getLsbD 7 <;> rfl

/-- A bank, a tile number and a fine row do not overlap: together they are a concatenation. -/
theorem tileRowAddr_eq_append (bank : BitVec 1) (tile : Byte) (fine : BitVec 3) :
    (bank.setWidth 16 <<< 12) ||| (tile.setWidth 16 <<< 4) ||| fine.setWidth 16 =
      0#3 ++ bank ++ tile ++ 0#1 ++ fine := by
  refine BitVec.eq_of_getLsbD_eq (w := 3 + 1 + 8 + 1 + 3) fun i hi => ?_
  simp only [BitVec.getLsbD_append, BitVec.getLsbD_or]
  interval_cases i <;> simp

theorem tileRowAddr_toNat (bank : BitVec 1) (tile : Byte) (fine : BitVec 3) :
    ((bank.setWidth 16 <<< 12) ||| (tile.setWidth 16 <<< 4) ||| fine.setWidth 16).toNat =
      0x1000 * bank.toNat + 16 * tile.toNat + fine.toNat := by
  rw [tileRowAddr_eq_append]
  simp only [toNat_append_add, BitVec.toNat_ofNat]
  omega

/-- An even tile number plus a half is the tile number with that half as its bit 0. -/
theorem evenTile_add_half (id : Byte) (half : BitVec 1) :
    (id &&& 0xFE#8).setWidth 16 + half.setWidth 16 = (id.extractLsb' 1 7 ++ half).setWidth 16 := by
  have heven : id &&& 0xFE#8 = id.extractLsb' 1 7 ++ 0#1 := by
    refine BitVec.eq_of_getLsbD_eq (w := 7 + 1) fun i hi => ?_
    simp only [BitVec.getLsbD_append, BitVec.getLsbD_and]
    interval_cases i <;> simp
  have hhi := (id.extractLsb' 1 7).isLt
  have hhalf := half.isLt
  rw [heven]
  refine BitVec.eq_of_toNat_eq ?_
  simp only [BitVec.toNat_add, BitVec.toNat_setWidth, toNat_append_add, BitVec.toNat_ofNat]
  omega

theorem bitField_toNat {n : Nat} (b : BitVec n) (i : Nat) : (bitField b i).toNat = if b.getLsbD i then 1 else 0 := by
  cases h : b.getLsbD i <;> simp [bitField, h]

theorem spriteAddr8_toNat (bank : BitVec 1) (row : Int) (sl : Slot) :
    (spriteAddr8 bank row sl).toNat = 0x1000 * bank.toNat + 16 * sl.id.toNat + (spriteFine row sl.attr).toNat :=
  tileRowAddr_toNat _ _ _

/-- In 8×16 mode bit 0 of the tile number is the bank, and the half takes its place (rule R200). -/
theorem spriteAddr16_toNat (row : Int) (sl : Slot) :
    (spriteAddr16 row sl).toNat =
      0x1000 * (sl.id.toNat % 2) + 16 * (2 * (sl.id.toNat / 2) + (spriteHalf row sl.attr).toNat) +
        (spriteFine row sl.attr).toNat := by
  have hid := sl.id.isLt
  have hbank : (bitField sl.id 0).toNat = sl.id.toNat % 2 := by
    rw [bitField_toNat, BitVec.getLsbD, Nat.testBit_zero]
    split <;> simp_all
  have hhi : (sl.id.extractLsb' 1 7).toNat = sl.id.toNat / 2 := by
    rw [BitVec.extractLsb'_toNat, Nat.shiftRight_eq_div_pow]
    omega
  rw [spriteAddr16, evenTile_add_half, tileRowAddr_toNat, toNat_append_add, hbank, hhi, pow_one]

/-- The high plane, 8 above the low one, ends inside the pattern range (inference of rule R201). -/
theorem spriteAddr_le (s : State) (sl : Slot) : (s.spriteAddr sl).toNat ≤ 0x1FF7 := by
  have hid := sl.id.isLt
  have hbank := (ctrlSpBank s.bank.ctrl).isLt
  have hfine := (spriteFine (spriteRow s.timing.scanline sl) sl.attr).isLt
  have hhalf := (spriteHalf (spriteRow s.timing.scanline sl) sl.attr).isLt
  unfold State.spriteAddr
  split
  · rw [spriteAddr16_toNat]; omega
  · rw [spriteAddr8_toNat]; omega

/-- Settles O45, by the sprite height. -/
theorem spriteFetchAddresses : Obligations.SpriteFetchAddresses := by
  intro s sl row fine
  have hfine := spriteFine_toNat (spriteRow s.timing.scanline sl) sl.attr
  have hle := spriteAddr_le s sl
  have hhi : (s.spriteAddr sl + 8#16).toNat = (s.spriteAddr sl).toNat + 8 :=
    BitVec.toNat_add_of_lt (by rw [BitVec.toNat_ofNat]; omega)
  refine ⟨fun h8 => ?size8, fun h16 => ?size16, hhi, by omega⟩
  case size8 =>
    have hbank : 0x1000 * (ctrlSpBank s.bank.ctrl).toNat = if s.bank.ctrl.getLsbD 3 then 0x1000 else 0 := by
      rw [ctrlSpBank, bitField_toNat, mul_ite]
    rw [State.spriteAddr, ctrlSpSize16, h8, if_neg Bool.false_ne_true, spriteAddr8_toNat, hbank, hfine]
    rfl
  case size16 =>
    rw [State.spriteAddr, ctrlSpSize16, h16, if_pos rfl, spriteAddr16_toNat, hfine, spriteHalf_toNat]
    rfl

/-! ### A scan, from the entries that qualify (rules R191 to R196) -/

theorem qualifyingEntries_eq (s : State) : s.qualifyingEntries = entryNumbers.filter s.entryQualifies := by
  refine List.filter_congr fun n _ => ?_
  rw [State.entryQualifies, qualifies, spriteHeight, ctrlSpSize16, Bool.decide_and]

/-- Entry 0 comes first, so if it qualifies at all it is one of the first eight. -/
theorem zero_mem_take_qualifyingEntries (s : State) : 0 ∈ s.qualifyingEntries.take 8 ↔ 0 ∈ s.qualifyingEntries := by
  refine ⟨List.mem_of_mem_take, fun h => ?_⟩
  rw [qualifyingEntries_eq] at h ⊢
  have h0 : s.entryQualifies 0 = true := (List.mem_filter.1 h).2
  rw [show entryNumbers = 0 :: entryNumbers.tail from rfl, List.filter_cons_of_pos h0]
  exact List.mem_cons_self

section Scan

variable (s : State)

theorem scan_of_qualifyingEntries :
    ScanResult s { sp := s.sp.clear, overflow := false } s.scan s.qualifyingEntries := by
  rw [qualifyingEntries_eq]
  exact scan_whole s

theorem scan_count : s.scan.sp.count = min 8 s.qualifyingEntries.length := by
  rw [(scan_of_qualifyingEntries s).count, show s.sp.clear.count = 0 from rfl, Nat.zero_add]

theorem scan_overflow : s.scan.overflow = decide (8 < s.qualifyingEntries.length) := by
  rw [(scan_of_qualifyingEntries s).overflow, show s.sp.clear.count = 0 from rfl, Nat.zero_add, Bool.false_or]

theorem scan_zeroPossible : s.scan.sp.zeroPossible = decide (0 ∈ s.qualifyingEntries) :=
  (scan_of_qualifyingEntries s).zeroPossible.trans <|
    (Bool.false_or _).trans (decide_eq_decide.2 (zero_mem_take_qualifyingEntries s))

/-- A listed entry is copied into its slot, whose shifters stay. -/
theorem scan_slot_listed {i : Fin 8} {n : Nat} (h : s.qualifyingEntries[i.val]? = some n) :
    s.scan.sp.slot[i] = s.copyOf s.sp.slot[i] n := by
  rw [(scan_of_qualifyingEntries s).new i n (Nat.zero_le _) h]
  simp [Sprites.clear, State.copyOf, Slot.copyEntry, Slot.clear]

/-- A slot without an entry is left as the clear made it. -/
theorem scan_slot_rest {i : Fin 8} (h : s.qualifyingEntries.length ≤ i.val) :
    s.scan.sp.slot[i] = s.sp.slot[i].clear := by
  rw [(scan_of_qualifyingEntries s).rest i (by rwa [show s.sp.clear.count = 0 from rfl, Nat.zero_add])]
  simp [Sprites.clear]

/-- No evaluation moves a shifter (rule R191). -/
theorem scan_slot_shifters (i : Fin 8) :
    s.scan.sp.slot[i].lo = s.sp.slot[i].lo ∧ s.scan.sp.slot[i].hi = s.sp.slot[i].hi := by
  rcases Nat.lt_or_ge i.val s.qualifyingEntries.length with h | h
  · rw [scan_slot_listed s (List.getElem?_eq_getElem h)]
    exact ⟨rfl, rfl⟩
  · rw [scan_slot_rest s h]
    exact ⟨rfl, rfl⟩

end Scan

/-- A scan sees OAM, CTRL, the scanline and the old list, and nothing else. -/
theorem scan_congr {s t : State} (hmem : t.mem = s.mem) (hctrl : t.bank.ctrl = s.bank.ctrl)
    (hline : t.timing.scanline = s.timing.scanline) (hsp : t.sp = s.sp) : t.scan = s.scan := by
  have hbyte : t.oamByte = s.oamByte := funext fun k => by rw [State.oamByte, State.oamByte, hmem]
  have hentry : t.scanEntry = s.scanEntry := by
    funext acc n
    rw [State.scanEntry, State.scanEntry, hbyte, hctrl, hline]
  rw [State.scan, State.scan, hentry, hsp]

/-! ### The sprite step at each dot (rules R190, R197, R204, R240) -/

section SpriteStep

variable {s : State}

theorem spriteStep_of_shiftDot (hl : s.RenderingLine) (h1 : 1 ≤ s.timing.dot) (h257 : s.timing.dot ≤ 257) :
    s.spriteStep = s.advanceSprites := by
  rw [State.spriteStep, if_pos ((onRenderingLine_iff s).2 hl), if_pos ⟨h1, h257⟩]

theorem spriteStep_of_dot_320 (hl : s.RenderingLine) (hd : s.timing.dot = 320) :
    s.spriteStep = s.evaluateSprites := by
  rw [State.spriteStep, if_pos ((onRenderingLine_iff s).2 hl), if_neg (by omega), if_pos hd]

theorem spriteStep_of_dot_340 (hl : s.RenderingLine) (hd : s.timing.dot = 340) : s.spriteStep = s.fetchSprites := by
  rw [State.spriteStep, if_pos ((onRenderingLine_iff s).2 hl), if_neg (by omega), if_neg (by omega), if_pos hd]

/-- The dots at which the sprite step has nothing to do. -/
def State.SpriteIdle (s : State) : Prop :=
  s.RenderingLine → ¬(1 ≤ s.timing.dot ∧ s.timing.dot ≤ 257) ∧ s.timing.dot ≠ 320 ∧ s.timing.dot ≠ 340

theorem spriteStep_of_idle (h : s.SpriteIdle) : s.spriteStep = s := by
  rw [State.spriteStep]
  split
  next hl =>
    obtain ⟨hshift, h320, h340⟩ := h ((onRenderingLine_iff s).1 hl)
    rw [if_neg hshift, if_neg h320, if_neg h340]
  next => rfl

end SpriteStep

/-- Slot `i` after one dot of the shift/delay step (rules R204, R205). -/
def State.movedSlot (s : State) (i : Fin 8) : Slot :=
  if s.showSp = true ∧ i.val < s.sp.count then s.sp.slot[i].advance else s.sp.slot[i]

theorem advanceSprites_slot (s : State) (i : Fin 8) : s.advanceSprites.sp.slot[i] = s.movedSlot i := by
  unfold State.advanceSprites State.movedSlot
  cases s.showSp <;> simp [Sprites.advance]

theorem advanceSprites_list (s : State) :
    s.advanceSprites.sp.count = s.sp.count ∧ s.advanceSprites.sp.zeroPossible = s.sp.zeroPossible := by
  unfold State.advanceSprites
  cases s.showSp <;> exact ⟨rfl, rfl⟩

theorem clearShifters_slot (sp : Sprites) (i : Fin 8) :
    sp.clearShifters.slot[i] = { sp.slot[i] with lo := 0#8, hi := 0#8 } := by
  simp [Sprites.clearShifters]

theorem timingEvents_sp (s : State) :
    s.timingEvents.sp = if s.timing.scanline = -1 ∧ s.timing.dot = 1 then s.sp.clearShifters else s.sp := by
  unfold State.timingEvents
  repeat' split
  all_goals rfl

/-! ### The sprite pipeline after a TICK -/

/-- The machine that the sprite step of a TICK starts from (rule R241). -/
def State.atSprites (s : State) : State := s.oddFrameSkip.backgroundStep

section AtSprites

variable (s : State)

@[simp] theorem atSprites_sp : s.atSprites.sp = s.sp := by
  rw [State.atSprites, (backgroundStep_kept _).sp, oddFrameSkip_eq]

@[simp] theorem atSprites_mem : s.atSprites.mem = s.mem := by
  rw [State.atSprites, (backgroundStep_kept _).mem, (oddFrameSkip_kept s).mem]

@[simp] theorem atSprites_ctrl : s.atSprites.bank.ctrl = s.bank.ctrl := by
  rw [State.atSprites, (backgroundStep_kept _).ctrl, oddFrameSkip_bank]

@[simp] theorem atSprites_mask : s.atSprites.bank.mask = s.bank.mask := by
  rw [State.atSprites, (backgroundStep_kept _).mask, oddFrameSkip_bank]

@[simp] theorem atSprites_status : s.atSprites.bank.status = s.bank.status := by
  rw [State.atSprites, (backgroundStep_kept _).status, oddFrameSkip_bank]

@[simp] theorem atSprites_timing : s.atSprites.timing = s.oddFrameSkip.timing := (backgroundStep_kept _).timing

theorem atSprites_renderingLine : s.atSprites.RenderingLine ↔ s.RenderingLine := by
  rw [State.RenderingLine, State.RenderingLine, atSprites_timing, oddFrameSkip_scanline]

theorem atSprites_movedSlot (i : Fin 8) : s.atSprites.movedSlot i = s.movedSlot i := by
  rw [State.movedSlot, State.movedSlot, State.showSp, State.showSp, atSprites_mask, atSprites_sp]

theorem atSprites_scan : s.atSprites.scan = s.scan :=
  scan_congr (atSprites_mem s) (atSprites_ctrl s) (by rw [atSprites_timing, oddFrameSkip_scanline]) (atSprites_sp s)

end AtSprites

/-- The sprite pipeline after a TICK is that of its sprite step, but for the pre-render clear (rule R243). -/
theorem tick_sp (s : State) :
    s.tick.sp =
      if s.timing.scanline = -1 ∧ s.oddFrameSkip.timing.dot = 1 then s.atSprites.spriteStep.sp.clearShifters
      else s.atSprites.spriteStep.sp := by
  rw [tick_eq, (advance_kept _).sp, timingEvents_sp, dotWork_timing, oddFrameSkip_scanline, State.dotWork,
    (compositorStep_kept _).sp]
  rfl

section TickSprites

variable {s : State}

/-- Slot `i` after a TICK of dots 1 to 257 (rules R204, R243). -/
theorem tick_slot_of_shiftDot (hl : s.RenderingLine) (h1 : 1 ≤ s.oddFrameSkip.timing.dot)
    (h257 : s.oddFrameSkip.timing.dot ≤ 257) (i : Fin 8) :
    s.tick.sp.slot[i] =
      if s.timing.scanline = -1 ∧ s.oddFrameSkip.timing.dot = 1 then { s.movedSlot i with lo := 0#8, hi := 0#8 }
      else s.movedSlot i := by
  have hstep := spriteStep_of_shiftDot (s := s.atSprites) ((atSprites_renderingLine s).2 hl)
    (by rwa [atSprites_timing]) (by rwa [atSprites_timing])
  rw [tick_sp, hstep]
  split
  · rw [clearShifters_slot, advanceSprites_slot, atSprites_movedSlot]
  · rw [advanceSprites_slot, atSprites_movedSlot]

theorem tick_list_of_shiftDot (hl : s.RenderingLine) (h1 : 1 ≤ s.oddFrameSkip.timing.dot)
    (h257 : s.oddFrameSkip.timing.dot ≤ 257) :
    s.tick.sp.count = s.sp.count ∧ s.tick.sp.zeroPossible = s.sp.zeroPossible := by
  have hstep := spriteStep_of_shiftDot (s := s.atSprites) ((atSprites_renderingLine s).2 hl)
    (by rwa [atSprites_timing]) (by rwa [atSprites_timing])
  have hlist := advanceSprites_list s.atSprites
  rw [atSprites_sp] at hlist
  rw [tick_sp, hstep]
  split <;> exact hlist

/-- Past dot 1 the pre-render clear is over. -/
theorem tick_sp_of_dot_ne_1 (h : s.oddFrameSkip.timing.dot ≠ 1) : s.tick.sp = s.atSprites.spriteStep.sp := by
  rw [tick_sp, if_neg fun hpre => h hpre.2]

theorem tick_sp_of_dot_320 (hl : s.RenderingLine) (hd : s.oddFrameSkip.timing.dot = 320) : s.tick.sp = s.scan.sp := by
  rw [tick_sp_of_dot_ne_1 (by omega),
    spriteStep_of_dot_320 ((atSprites_renderingLine s).2 hl) (by rwa [atSprites_timing]), State.evaluateSprites,
    atSprites_scan]

/-- Where the sprite step has nothing to do, the whole sprite pipeline is as it was. -/
theorem tick_sp_of_idle
    (h : s.RenderingLine → ¬(1 ≤ s.oddFrameSkip.timing.dot ∧ s.oddFrameSkip.timing.dot ≤ 257) ∧
      s.oddFrameSkip.timing.dot ≠ 320 ∧ s.oddFrameSkip.timing.dot ≠ 340) : s.tick.sp = s.sp := by
  have hidle : s.atSprites.SpriteIdle := by
    rw [State.SpriteIdle, atSprites_renderingLine, atSprites_timing]
    exact h
  have hpre : ¬(s.timing.scanline = -1 ∧ s.oddFrameSkip.timing.dot = 1) := fun ⟨hline, hdot⟩ =>
    (h ⟨by omega, by omega⟩).1 ⟨by omega, by omega⟩
  rw [tick_sp, if_neg hpre, spriteStep_of_idle hidle, atSprites_sp]

end TickSprites

/-- Settles O46, by whether the shift/delay step moves the slot. -/
theorem spriteShiftAndDelay : Obligations.SpriteShiftAndDelay := by
  intro s d hm hl hd out
  obtain rfl := State.processes_iff.1 hd
  refine ⟨s.tick, exec_attached .tick hm, fun h1 h257 => ?shiftDot,
    fun hshift h320 h340 => tick_sp_of_idle fun _ => ⟨hshift, h320, h340⟩⟩
  obtain ⟨hcount, hzero⟩ := tick_list_of_shiftDot hl h1 h257
  refine ⟨hcount, hzero, fun i => ?_⟩
  have hslot : s.tick.sp.slot[i] = out (s.movedSlot i) := tick_slot_of_shiftDot hl h1 h257 i
  rw [hslot]
  refine ⟨fun hshow hi hx => congrArg out ?delay, fun hshow hi hx => congrArg out ?shift,
    fun hkept => congrArg out ?kept⟩
  case delay => exact (if_pos ⟨hshow, hi⟩).trans (if_pos hx)
  case shift => exact (if_pos ⟨hshow, hi⟩).trans (if_neg (not_not.2 hx))
  case kept =>
    refine if_neg fun ⟨hshow, hi⟩ => ?_
    rcases hkept with hoff | hbeyond
    · exact Bool.false_ne_true (hoff.symm.trans hshow)
    · omega

/-! ### STATUS, bit by bit (rules R195, R226, R243, R244) -/

/-- Setting one bit of STATUS leaves the others (rule R23). -/
theorem getLsbD_or_twoPow (st : Byte) {k : Nat} (hk : k < 8) (i : Nat) :
    (st ||| BitVec.twoPow 8 k).getLsbD i = (st.getLsbD i || decide (i = k)) := by
  rw [BitVec.getLsbD_or, BitVec.getLsbD_twoPow, decide_eq_true hk, Bool.true_and]
  simp only [eq_comm]

theorem getLsbD_setSpOverflow (st : Byte) (i : Nat) :
    (setSpOverflow st).getLsbD i = (st.getLsbD i || decide (i = 5)) := by
  rw [setSpOverflow, show (0x20#8) = BitVec.twoPow 8 5 from rfl, getLsbD_or_twoPow st (by decide)]

theorem getLsbD_setSpZeroHit (st : Byte) (i : Nat) :
    (setSpZeroHit st).getLsbD i = (st.getLsbD i || decide (i = 6)) := by
  rw [setSpZeroHit, show (0x40#8) = BitVec.twoPow 8 6 from rfl, getLsbD_or_twoPow st (by decide)]

/-- The pre-render clear clears every flag. -/
theorem getLsbD_clearStatusFlags (st : Byte) {i : Nat} (hi : 5 ≤ i) : (clearStatusFlags st).getLsbD i = false := by
  have hflag : (0x1F#8).getLsbD i = false :=
    Nat.testBit_lt_two_pow ((by decide : 0x1F < 2 ^ 5).trans_le (Nat.pow_le_pow_right Nat.two_pos hi))
  rw [clearStatusFlags, BitVec.getLsbD_and, hflag, Bool.and_false]

/-! ### The flags and the request after a TICK -/

/-- Whether the evaluation of this dot finds a ninth entry (rule R195). -/
def State.overflowRises (s : State) : Bool := s.onRenderingLine && decide (s.timing.dot = 320) && s.scan.overflow

/-- Whether the compositor of this dot sees a sprite-zero hit (rule R226). -/
def State.hitRises (s : State) : Bool := s.inCompositorWindow && s.spriteZeroHit

/-- Only the evaluation of dot 320 moves STATUS in the sprite step. -/
theorem spriteStep_status_of_dot_ne_320 {s : State} (h : s.timing.dot ≠ 320) :
    s.spriteStep.bank.status = s.bank.status := by
  unfold State.spriteStep
  rw [if_neg h]
  split
  · split
    · unfold State.advanceSprites
      split <;> rfl
    · split
      · exact congrArg RegisterBank.status (fetchSlots_kept slotNumbers s).bank
      · rfl
  · rfl

theorem spriteStep_status (s : State) :
    s.spriteStep.bank.status = if s.overflowRises then setSpOverflow s.bank.status else s.bank.status := by
  rw [State.overflowRises]
  by_cases hd : s.timing.dot = 320
  · by_cases hl : s.RenderingLine
    · rw [spriteStep_of_dot_320 hl hd, (onRenderingLine_iff s).2 hl, decide_eq_true hd]
      rfl
    · rw [spriteStep_of_idle fun h => absurd h hl, Bool.eq_false_iff.2 (mt (onRenderingLine_iff s).1 hl)]
      rfl
  · rw [spriteStep_status_of_dot_ne_320 hd, decide_eq_false hd, Bool.and_false]
    rfl

theorem compositorStep_status (s : State) :
    s.compositorStep.bank.status = if s.hitRises then setSpZeroHit s.bank.status else s.bank.status := by
  rw [compositorStep_eq, State.hitRises]
  cases s.inCompositorWindow <;> rfl

/-- STATUS when the work of a dot is done: only the two sprite flags may have risen. -/
theorem getLsbD_dotWork_status (s : State) (i : Nat) :
    s.dotWork.bank.status.getLsbD i =
      (s.bank.status.getLsbD i || (s.backgroundStep.overflowRises && decide (i = 5)) ||
        (s.atCompositor.hitRises && decide (i = 6))) := by
  rw [State.dotWork, compositorStep_status, spriteStep_status, (backgroundStep_kept s).status, State.atCompositor]
  cases s.backgroundStep.overflowRises <;> cases s.backgroundStep.spriteStep.hitRises <;>
    simp [getLsbD_setSpOverflow, getLsbD_setSpZeroHit]

theorem tick_status (s : State) :
    s.tick.bank.status =
      if s.timing.scanline = -1 ∧ s.oddFrameSkip.timing.dot = 1 then
        clearStatusFlags s.oddFrameSkip.dotWork.bank.status
      else if s.timing.scanline = 241 ∧ s.oddFrameSkip.timing.dot = 1 then
        setVblank s.oddFrameSkip.dotWork.bank.status
      else s.oddFrameSkip.dotWork.bank.status := by
  rw [tick_eq, (advance_kept _).bank, timingEvents_status, dotWork_timing, oddFrameSkip_scanline]

/-- The request after a TICK (rule R244). -/
theorem tick_nmiPending (s : State) :
    s.tick.timing.nmiPending =
      if s.timing.scanline = 241 ∧ s.oddFrameSkip.timing.dot = 1 then s.timing.nmiPending || ctrlNmiEnable s.bank.ctrl
      else s.timing.nmiPending := by
  rw [tick_eq, (advance_kept _).nmiPending, timingEvents_nmiPending, dotWork_timing, oddFrameSkip_scanline,
    (dotWork_kept _).ctrl, oddFrameSkip_bank, oddFrameSkip_eq]

section Flags

variable {s : State}

/-- The pre-render clear leaves no flag set (rule R243). -/
theorem getLsbD_tick_status_of_clear (h : s.timing.scanline = -1 ∧ s.oddFrameSkip.timing.dot = 1) {i : Nat}
    (hi : 5 ≤ i) : s.tick.bank.status.getLsbD i = false := by
  rw [tick_status, if_pos h, getLsbD_clearStatusFlags _ hi]

/-- Away from the pre-render clear a flag is set when it was, or when its own event happens. -/
theorem getLsbD_tick_status (h : ¬(s.timing.scanline = -1 ∧ s.oddFrameSkip.timing.dot = 1)) (i : Nat) :
    s.tick.bank.status.getLsbD i =
      (s.bank.status.getLsbD i || (s.oddFrameSkip.backgroundStep.overflowRises && decide (i = 5)) ||
        (s.oddFrameSkip.atCompositor.hitRises && decide (i = 6)) ||
        (decide (s.timing.scanline = 241 ∧ s.oddFrameSkip.timing.dot = 1) && decide (i = 7))) := by
  have hwork := getLsbD_dotWork_status s.oddFrameSkip i
  rw [oddFrameSkip_bank] at hwork
  rw [tick_status, if_neg h, ← hwork]
  split
  next hv => rw [getLsbD_setVblank, decide_eq_true hv, Bool.true_and]
  next hv => rw [decide_eq_false hv, Bool.false_and, Bool.or_false]

/-- Away from the pre-render clear no flag falls (rules R195, R226). -/
theorem getLsbD_tick_status_of_set (h : ¬(s.timing.scanline = -1 ∧ s.oddFrameSkip.timing.dot = 1)) {i : Nat}
    (hi : s.bank.status.getLsbD i = true) : s.tick.bank.status.getLsbD i = true := by
  rw [getLsbD_tick_status h, hi, Bool.true_or, Bool.true_or, Bool.true_or]

theorem tick_spOverflow (h : ¬(s.timing.scanline = -1 ∧ s.oddFrameSkip.timing.dot = 1)) :
    s.tick.bank.status.getLsbD 5 = (s.bank.status.getLsbD 5 || s.atSprites.overflowRises) := by
  rw [getLsbD_tick_status h, State.atSprites]
  simp

theorem tick_spZeroHit (h : ¬(s.timing.scanline = -1 ∧ s.oddFrameSkip.timing.dot = 1)) :
    s.tick.bank.status.getLsbD 6 = (s.bank.status.getLsbD 6 || s.oddFrameSkip.atCompositor.hitRises) := by
  rw [getLsbD_tick_status h]
  simp

theorem tick_vblankFlag (h : ¬(s.timing.scanline = -1 ∧ s.oddFrameSkip.timing.dot = 1)) :
    s.tick.bank.status.getLsbD 7 =
      (s.bank.status.getLsbD 7 || decide (s.timing.scanline = 241 ∧ s.oddFrameSkip.timing.dot = 1)) := by
  rw [getLsbD_tick_status h]
  simp

end Flags

/-- The evaluation of a TICK finds a ninth entry at dot 320 of a rendering scanline (rule R195). -/
theorem atSprites_overflowRises_iff (s : State) :
    s.atSprites.overflowRises = true ↔
      s.RenderingLine ∧ s.timing.dot = 320 ∧ 8 < s.qualifyingEntries.length := by
  rw [State.overflowRises, Bool.and_eq_true, Bool.and_eq_true, onRenderingLine_iff, atSprites_renderingLine,
    atSprites_timing, decide_eq_true_iff, oddFrameSkip_dot_eq_iff s (by decide), atSprites_scan, scan_overflow,
    decide_eq_true_iff, and_assoc]

/-- The pre-render clear of a slot that the sprite step has moved: only the delay can show that it did. -/
theorem movedSlot_cleared (s : State) (i : Fin 8) :
    { s.movedSlot i with lo := 0#8, hi := 0#8 } = { s.sp.slot[i] with
      x := if s.bank.mask.getLsbD 4 = true ∧ i.val < s.sp.count ∧ s.sp.slot[i].x ≠ 0#8
        then s.sp.slot[i].x - 1#8 else s.sp.slot[i].x
      lo := 0#8
      hi := 0#8 } := by
  unfold State.movedSlot State.showSp maskShowSp
  by_cases hm : s.bank.mask.getLsbD 4 = true ∧ i.val < s.sp.count
  · by_cases hx : s.sp.slot[i].x = 0#8
    · rw [if_pos hm, if_neg fun h => h.2.2 hx, Slot.advance, if_neg (not_not.2 hx)]
    · rw [if_pos hm, if_pos ⟨hm.1, hm.2, hx⟩, Slot.advance, if_pos hx]
  · rw [if_neg hm, if_neg fun h => hm ⟨h.1, h.2.1⟩]

/-- The shifters of slot `i` move in a TICK of dot `d` (rule R204). -/
def State.Shifts (s : State) (d : Nat) (i : Fin 8) : Prop :=
  s.RenderingLine ∧ 1 ≤ d ∧ d ≤ 257 ∧ s.bank.mask.getLsbD 4 = true ∧ i.val < s.sp.count ∧ s.sp.slot[i].x = 0#8

theorem tick_slot_of_shifts {s : State} {i : Fin 8} (h : s.Shifts s.oddFrameSkip.timing.dot i)
    (hpre : ¬(s.timing.scanline = -1 ∧ s.oddFrameSkip.timing.dot = 1)) :
    s.tick.sp.slot[i] = { s.sp.slot[i] with lo := s.sp.slot[i].lo <<< 1, hi := s.sp.slot[i].hi <<< 1 } := by
  obtain ⟨hl, h1, h257, hshow, hi, hx⟩ := h
  rw [tick_slot_of_shiftDot hl h1 h257, if_neg hpre, State.movedSlot, if_pos ⟨hshow, hi⟩, Slot.advance,
    if_neg (not_not.2 hx)]

/-- A slot that does not shift may count its delay down or take an entry, but its shifters stay, the load of dot 340
apart. -/
theorem tick_slot_shifters_of_not_shifts {s : State} {i : Fin 8} (h : ¬ s.Shifts s.oddFrameSkip.timing.dot i)
    (hpre : ¬(s.timing.scanline = -1 ∧ s.oddFrameSkip.timing.dot = 1)) (h340 : s.oddFrameSkip.timing.dot ≠ 340) :
    s.tick.sp.slot[i].lo = s.sp.slot[i].lo ∧ s.tick.sp.slot[i].hi = s.sp.slot[i].hi := by
  by_cases hshift : s.RenderingLine ∧ 1 ≤ s.oddFrameSkip.timing.dot ∧ s.oddFrameSkip.timing.dot ≤ 257
  · obtain ⟨hl, h1, h257⟩ := hshift
    rw [tick_slot_of_shiftDot hl h1 h257, if_neg hpre, State.movedSlot]
    split
    next hmoves =>
      have hx : s.sp.slot[i].x ≠ 0#8 := fun hx => h ⟨hl, h1, h257, hmoves.1, hmoves.2, hx⟩
      rw [Slot.advance, if_pos hx]
      exact ⟨rfl, rfl⟩
    next => exact ⟨rfl, rfl⟩
  · by_cases heval : s.RenderingLine ∧ s.oddFrameSkip.timing.dot = 320
    · rw [tick_sp_of_dot_320 heval.1 heval.2]
      exact scan_slot_shifters s i
    · rw [tick_sp_of_idle fun hl => ⟨fun hd => hshift ⟨hl, hd⟩, fun hd => heval ⟨hl, hd⟩, h340⟩]
      exact ⟨rfl, rfl⟩

/-- Settles O33, event by event. -/
theorem tickVblankAndPreRenderClear : Obligations.TickVblankAndPreRenderClear := by
  intro s d hm hd
  obtain rfl := State.processes_iff.1 hd
  refine ⟨s.tick, exec_attached .tick hm, fun hline hdot => ?vblank, fun hline hdot => ?clear,
    fun hnotVblank hnotClear => ?otherDots, fun hnotClear => ?kept⟩
  case vblank =>
    rw [tick_vblankFlag (by omega), tick_nmiPending, if_pos ⟨hline, hdot⟩, decide_eq_true ⟨hline, hdot⟩]
    exact ⟨Bool.or_true _, rfl⟩
  case clear =>
    have hl : s.RenderingLine := ⟨by omega, by omega⟩
    obtain ⟨hcount, hzero⟩ := tick_list_of_shiftDot hl (by omega) (by omega)
    have hflag {i : Nat} (hi : 5 ≤ i) := getLsbD_tick_status_of_clear ⟨hline, hdot⟩ hi
    refine ⟨hflag (by decide), hflag (by decide), hflag (by decide), fun i => ?_, hcount, hzero, ?_⟩
    · rw [tick_slot_of_shiftDot hl (by omega) (by omega), if_pos ⟨hline, hdot⟩, movedSlot_cleared]
    · rw [tick_nmiPending, if_neg (by omega)]
  case otherDots =>
    have hvblank : ¬(s.timing.scanline = 241 ∧ s.oddFrameSkip.timing.dot = 1) := by omega
    rw [tick_vblankFlag (by omega), tick_nmiPending, if_neg hvblank, decide_eq_false hvblank]
    exact ⟨Bool.or_false _, rfl⟩
  case kept =>
    have hpre : ¬(s.timing.scanline = -1 ∧ s.oddFrameSkip.timing.dot = 1) := by omega
    refine ⟨getLsbD_tick_status_of_set hpre, getLsbD_tick_status_of_set hpre, fun h340 i => ⟨fun hshifts => ?_,
      fun hnot => tick_slot_shifters_of_not_shifts hnot hpre h340⟩⟩
    rw [tick_slot_of_shifts hshifts hpre]
    exact ⟨rfl, rfl⟩

/-- Settles O43, from the result of the scan. -/
theorem evaluationListsTheFirstEight : Obligations.EvaluationListsTheFirstEight := by
  intro s hm hl hd q
  have hdot : s.oddFrameSkip.timing.dot = 320 := (oddFrameSkip_dot_eq_iff s (by decide)).2 hd
  refine ⟨s.tick, exec_attached .tick hm, ?_⟩
  rw [tick_sp_of_dot_320 hl hdot]
  refine ⟨scan_count s, scan_zeroPossible s, ?overflow, fun i n hn => scan_slot_listed s hn,
    fun i hi => scan_slot_rest s hi⟩
  case overflow =>
    have hninth : s.atSprites.overflowRises = decide (8 < q.length) := by
      rw [Bool.eq_iff_iff, atSprites_overflowRises_iff, decide_eq_true_iff]
      exact ⟨fun ⟨_, _, hlen⟩ => hlen, fun hlen => ⟨hl, hd, hlen⟩⟩
    rw [tick_spOverflow (by omega), hninth]

/-! ### The sprite-zero hit (rules R226, R227) -/

theorem inHitWindow_iff (mask : Byte) (d : Nat) :
    inHitWindow mask d = true ↔
      (if mask.getLsbD 1 = false ∧ mask.getLsbD 2 = false then 9 else 1) ≤ d ∧ d < 258 := by
  unfold inHitWindow maskShowBgLeft maskShowSpLeft
  cases mask.getLsbD 1 <;> cases mask.getLsbD 2 <;> simp

theorem spriteZeroHit_iff (s : State) :
    s.spriteZeroHit = true ↔
      s.bgPixel.pixel ≠ 0#2 ∧ s.fgPixel.pixel ≠ 0#2 ∧ s.fgPixel.slot = some 0 ∧ s.sp.zeroPossible = true ∧
        s.bank.mask.getLsbD 3 = true ∧ s.bank.mask.getLsbD 4 = true ∧ inHitWindow s.bank.mask s.timing.dot = true := by
  simp only [State.spriteZeroHit, State.showBg, State.showSp, maskShowBg, maskShowSp, Bool.and_eq_true, bne_iff_ne,
    beq_iff_eq, and_assoc]

section Hit

variable (s : State)

theorem atCompositor_timing : s.atCompositor.timing = s.timing :=
  (spriteStep_kept _).timing.trans (backgroundStep_kept s).timing

theorem atCompositor_mask : s.atCompositor.bank.mask = s.bank.mask :=
  (spriteStep_kept _).mask.trans (backgroundStep_kept s).mask

theorem atCompositor_inCompositorWindow_iff :
    s.atCompositor.inCompositorWindow = true ↔ s.VisibleLine ∧ 1 ≤ s.timing.dot ∧ s.timing.dot ≤ 257 := by
  rw [inCompositorWindow_iff, State.VisibleLine, atCompositor_timing, State.VisibleLine]

end Hit

/-- Inside the compositor's window the sprite step only shifts, so `zeroPossible` is still the one of the evaluation. -/
theorem atCompositor_zeroPossible {s : State} (hv : s.VisibleLine) (h1 : 1 ≤ s.timing.dot) (h257 : s.timing.dot ≤ 257) :
    s.atCompositor.sp.zeroPossible = s.sp.zeroPossible := by
  have k := backgroundStep_kept s
  have hl : s.backgroundStep.RenderingLine := by
    rw [State.RenderingLine, k.timing]
    exact ⟨by have := hv.1; omega, hv.2⟩
  rw [State.atCompositor, spriteStep_of_shiftDot hl (by rwa [k.timing]) (by rwa [k.timing]), (advanceSprites_list _).2,
    k.sp]

theorem atCompositor_hitRises_iff (s : State) :
    s.atCompositor.hitRises = true ↔
      s.VisibleLine ∧ s.atCompositor.bgPixel.pixel ≠ 0#2 ∧ s.atCompositor.fgPixel.pixel ≠ 0#2 ∧
        s.atCompositor.fgPixel.slot = some 0 ∧ s.sp.zeroPossible = true ∧
        s.bank.mask.getLsbD 3 = true ∧ s.bank.mask.getLsbD 4 = true ∧
        (if s.bank.mask.getLsbD 1 = false ∧ s.bank.mask.getLsbD 2 = false then 9 else 1) ≤ s.timing.dot ∧
        s.timing.dot < 258 := by
  rw [State.hitRises, Bool.and_eq_true, atCompositor_inCompositorWindow_iff, spriteZeroHit_iff, atCompositor_mask,
    atCompositor_timing, inHitWindow_iff]
  by_cases hwindow : s.VisibleLine ∧ 1 ≤ s.timing.dot ∧ s.timing.dot ≤ 257
  · obtain ⟨hv, h1, h257⟩ := hwindow
    rw [atCompositor_zeroPossible hv h1 h257]
    exact ⟨fun ⟨_, h⟩ => ⟨hv, h⟩, fun ⟨_, h⟩ => ⟨⟨hv, h1, h257⟩, h⟩⟩
  · refine ⟨fun ⟨h, _⟩ => absurd h hwindow,
      fun ⟨hv, _, _, _, _, _, _, hstart, hend⟩ => absurd ⟨hv, ?_, by omega⟩ hwindow⟩
    split at hstart <;> omega

/-- Settles O34, flag by flag. -/
theorem tickSpriteFlags : Obligations.TickSpriteFlags := by
  intro s hm hskip hclear
  have hnoSkip := oddFrameSkip_of_not_skipsDot hskip
  have hpre : ¬(s.timing.scanline = -1 ∧ s.oddFrameSkip.timing.dot = 1) := by rwa [hnoSkip]
  refine ⟨s.tick, exec_attached .tick hm, ?overflow, ?hit⟩
  case overflow => rw [tick_spOverflow hpre, Bool.or_eq_true, atSprites_overflowRises_iff]
  case hit => rw [tick_spZeroHit hpre, Bool.or_eq_true, hnoSkip, atCompositor_hitRises_iff]

end Sys2Proof.Machine
end

section
/-! PROOFS. Noninterference: slots beyond the count, and the shifters that a sprite fetch is about to load, move nothing
else (rules R190, R197, R203, R205). -/

namespace Sys2Proof.Machine

/-! ### Machines that are alike but for slots no rule shows -/

/-- The same machine with another sprite pipeline. -/
def State.withSp (s : State) (sp : Sprites) : State := { s with sp := sp }

/-- Two sprite pipelines with the same list, whose valid slots differ in the shifters at most; where those are
`shown`, not even there. -/
structure Sprites.Alike (shown : Prop) (sp sp' : Sprites) : Prop where
  count : sp'.count = sp.count
  zeroPossible : sp'.zeroPossible = sp.zeroPossible
  bytes : ∀ i : Fin 8, i.val < sp.count →
    sp'.slot[i] = { sp.slot[i] with lo := sp'.slot[i].lo, hi := sp'.slot[i].hi }
  valid : shown → ∀ i : Fin 8, i.val < sp.count → sp'.slot[i] = sp.slot[i]

/-- Two machines that are equal but for their sprite pipelines, which are alike. -/
structure State.Alike (shown : Prop) (s s' : State) : Prop where
  others : s' = s.withSp s'.sp
  sprites : s.sp.Alike shown s'.sp

theorem sameButUnseenSlots_iff {s s' : State} :
    s.SameButUnseenSlots s' ↔ s.Alike (¬ s.BeforeSpriteFetch) s' :=
  ⟨fun ⟨hothers, hcount, hzero, hslots⟩ =>
      ⟨hothers, hcount, hzero, fun i hi => (hslots i hi).1, fun hshown i hi => (hslots i hi).2 hshown⟩,
    fun ⟨hothers, h⟩ =>
      ⟨hothers, h.count, h.zeroPossible, fun i hi => ⟨h.bytes i hi, fun hshown => h.valid hshown i hi⟩⟩⟩

section Alike

variable {shown shown' : Prop} {sp sp' : Sprites} {s s' : State}

/-- Pipelines with the same valid slots are alike, whatever is shown. -/
theorem Sprites.Alike.of_valid (hcount : sp'.count = sp.count) (hzero : sp'.zeroPossible = sp.zeroPossible)
    (hvalid : ∀ i : Fin 8, i.val < sp.count → sp'.slot[i] = sp.slot[i]) : sp.Alike shown sp' :=
  ⟨hcount, hzero, fun i hi => by rw [hvalid i hi], fun _ => hvalid⟩

theorem sameButUnseenSlots_refl (s : State) : s.SameButUnseenSlots s :=
  sameButUnseenSlots_iff.2 ⟨rfl, .of_valid rfl rfl fun _ _ => rfl⟩

theorem State.Alike.mono (h : s.Alike shown s') (hshown : shown' → shown) : s.Alike shown' s' :=
  ⟨h.others, h.sprites.count, h.sprites.zeroPossible, h.sprites.bytes, fun h' => h.sprites.valid (hshown h')⟩

/-- What does not look at the sprite pipeline is the same of alike machines. -/
theorem State.Alike.observed {α : Type} {f : State → α} (h : s.Alike shown s')
    (hf : ∀ (t : State) (sp : Sprites), f (t.withSp sp) = f t) : f s' = f s := by
  rw [h.others, hf]

theorem State.Alike.trace (h : s.Alike shown s') : s'.trace = s.trace := h.observed fun _ _ => rfl

theorem State.Alike.timing (h : s.Alike shown s') : s'.timing = s.timing := h.observed fun _ _ => rfl

theorem State.Alike.attached (h : s.Alike shown s') : s'.mapper.attached = s.mapper.attached :=
  h.observed (f := fun t => t.mapper.attached) fun _ _ => rfl

theorem State.Alike.showSp (h : s.Alike shown s') : s'.showSp = s.showSp := h.observed fun _ _ => rfl

theorem State.Alike.renderingEnabled (h : s.Alike shown s') : s'.renderingEnabled = s.renderingEnabled :=
  h.observed fun _ _ => rfl

theorem State.Alike.onRenderingLine (h : s.Alike shown s') : s'.onRenderingLine = s.onRenderingLine :=
  h.observed fun _ _ => rfl

theorem State.Alike.inCompositorWindow (h : s.Alike shown s') : s'.inCompositorWindow = s.inCompositorWindow :=
  h.observed fun _ _ => rfl

theorem State.Alike.qualifyingEntries (h : s.Alike shown s') : s'.qualifyingEntries = s.qualifyingEntries :=
  h.observed fun _ _ => rfl

theorem State.Alike.reinitialize (h : s.Alike shown s') : s'.reinitialize = s.reinitialize :=
  h.observed fun _ _ => rfl

end Alike

/-! ### Steps that do not look at the sprite pipeline -/

/-- A step that does the same to every field but the sprite pipeline, which it keeps. -/
def SpriteBlind (f : State → State) : Prop := ∀ s sp, f (s.withSp sp) = (f s).withSp sp

theorem SpriteBlind.sp_eq {f : State → State} (hf : SpriteBlind f) (s : State) : (f s).sp = s.sp := by
  show (f (s.withSp s.sp)).sp = s.sp
  rw [hf]
  rfl

theorem SpriteBlind.alike {f : State → State} (hf : SpriteBlind f) {shown : Prop} {s s' : State}
    (h : s.Alike shown s') : (f s).Alike shown (f s') := by
  have hothers := hf s s'.sp
  rw [← h.others] at hothers
  refine ⟨?_, ?_⟩
  · rw [hf.sp_eq s']
    exact hothers
  · rw [hf.sp_eq s, hf.sp_eq s']
    exact h.sprites

theorem oddFrameSkip_spriteBlind : SpriteBlind State.oddFrameSkip := fun s sp => by
  rw [oddFrameSkip_eq, oddFrameSkip_eq]
  rfl

theorem afterFetch_withSp (s : State) (sp : Sprites) (a : Option BusAddr) :
    (s.withSp sp).afterFetch a = (s.afterFetch a).withSp sp := by
  cases a <;> rfl

theorem backgroundStep_spriteBlind : SpriteBlind State.backgroundStep := fun s sp => by
  have hline : (s.withSp sp).onRenderingLine = s.onRenderingLine := rfl
  rw [backgroundStep_eq, backgroundStep_eq, afterFetch_withSp, hline]
  split <;> rfl

theorem advance_spriteBlind : SpriteBlind State.advance := fun s sp => by
  have htiming : (s.withSp sp).timing = s.timing := rfl
  rw [advance_eq, advance_eq, htiming]
  repeat' split
  all_goals rfl

/-- No operation but TICK and RESET looks at the sprite pipeline. -/
theorem effectOf_spriteBlind {i : Instr} (ht : i ≠ .tick) (hr : i ≠ .reset) : SpriteBlind (effectOf i) := fun s sp => by
  cases i
  case tick => exact absurd rfl ht
  case reset => exact absurd rfl hr
  case wrScroll d => rw [effectOf_wrScroll, effectOf_wrScroll]; rfl
  case wrAddr d => rw [effectOf_wrAddr, effectOf_wrAddr]; rfl
  case rdData => rw [effectOf, effectOf, readDataPort_eq, readDataPort_eq]; rfl
  all_goals rfl

/-! ### The sprite fetch of alike machines (rules R197 to R203) -/

/-- A fetch moves the slots and the mapper's side, and nothing else. -/
theorem FetchKept.eq_of_reads {s t : State} {as : List BusAddr} (k : FetchKept s t) (r : Reads s t as) :
    t = { s with
      sp := t.sp
      mapper := s.mapper.afterReads as.length
      trace := (s.mapper.transcript as).reverse ++ s.trace } := by
  cases t
  rw [State.mk.injEq]
  exact ⟨k.bank, k.mem, k.bg, rfl, k.timing, k.back, k.front, r.mapper, k.statusLowSource, k.draws, k.driver,
    k.returned, r.trace⟩

theorem fetchSprites_eq (s : State) :
    s.fetchSprites = { s with
      sp := s.fetchSprites.sp
      mapper := s.mapper.afterReads (slotNumbers.flatMap s.planes).length
      trace := (s.mapper.transcript (slotNumbers.flatMap s.planes)).reverse ++ s.trace } :=
  (fetchSlots_kept slotNumbers s).eq_of_reads (fetchSlots_result slotNumbers s (by decide)).1

section Steps

variable {shown : Prop} {s s' : State}

/-- A slot's address does not depend on its shifters, so alike machines fetch the same planes. -/
theorem State.Alike.planes (h : s.Alike shown s') (i : Fin 8) : s'.planes i = s.planes i := by
  rw [State.planes, State.planes, h.sprites.count]
  split
  next hi =>
    rw [h.sprites.bytes i hi, h.others]
    rfl
  next => rfl

/-- The fetch loads the valid slots, so after it their shifters are the same. -/
theorem fetchSprites_alike (h : s.Alike shown s') (shown' : Prop) : s.fetchSprites.Alike shown' s'.fetchSprites := by
  have kf : FetchKept s s.fetchSprites := fetchSlots_kept slotNumbers s
  have kf' : FetchKept s' s'.fetchSprites := fetchSlots_kept slotNumbers s'
  refine ⟨?others, .of_valid ((kf'.count.trans h.sprites.count).trans kf.count.symm)
    ((kf'.zeroPossible.trans h.sprites.zeroPossible).trans kf.zeroPossible.symm) fun i hi => ?slot⟩
  case others =>
    have hplanes : slotNumbers.flatMap s'.planes = slotNumbers.flatMap s.planes :=
      List.flatMap_congr fun i _ => h.planes i
    rw [fetchSprites_eq s', fetchSprites_eq s, hplanes]
    generalize s'.fetchSprites.sp = fetched
    rw [h.others]
    rfl
  case slot =>
    rw [kf.count] at hi
    rw [fetchSprites_slot, fetchSprites_slot, if_pos hi, h.sprites.count, if_pos hi, h.sprites.bytes i hi, h.others]
    rfl

/-! ### The steps of a TICK from alike machines -/

/-- The shift/delay step moves the valid slots alone (rule R205). -/
theorem advanceSprites_alike (hshown : shown) (h : s.Alike shown s') (shown' : Prop) :
    s.advanceSprites.Alike shown' s'.advanceSprites := by
  obtain ⟨hcount, hzero⟩ := advanceSprites_list s
  obtain ⟨hcount', hzero'⟩ := advanceSprites_list s'
  refine ⟨?others, .of_valid ((hcount'.trans h.sprites.count).trans hcount.symm)
    ((hzero'.trans h.sprites.zeroPossible).trans hzero.symm) fun i hi => ?slot⟩
  case others =>
    rw [State.advanceSprites, State.advanceSprites, h.showSp]
    split
    · generalize s'.sp.advance = moved
      rw [h.others]
      rfl
    · exact h.others
  case slot =>
    rw [hcount] at hi
    rw [advanceSprites_slot, advanceSprites_slot, State.movedSlot, State.movedSlot, h.sprites.count,
      h.sprites.valid hshown i hi, h.showSp]

/-- The evaluation lists the same entries, each over the shifters that its slot had (rule R191). -/
theorem evaluateSprites_alike (h : s.Alike shown s') : s.evaluateSprites.Alike False s'.evaluateSprites := by
  have hentries := h.qualifyingEntries
  have hcount : s'.scan.sp.count = s.scan.sp.count := by rw [scan_count, scan_count, hentries]
  have hzero : s'.scan.sp.zeroPossible = s.scan.sp.zeroPossible := by
    rw [scan_zeroPossible, scan_zeroPossible, hentries]
  refine ⟨?others, hcount, hzero, fun i hi => ?bytes, False.elim⟩
  case others =>
    rw [State.evaluateSprites, State.evaluateSprites, scan_overflow, scan_overflow, hentries]
    generalize s'.scan.sp = listed
    rw [h.others]
    rfl
  case bytes =>
    have hlt : i.val < s.qualifyingEntries.length := by
      have hi' : i.val < s.scan.sp.count := hi
      rw [scan_count] at hi'
      omega
    have hentry := List.getElem?_eq_getElem hlt
    have hentry' : s'.qualifyingEntries[i.val]? = some _ := (congrArg (·[i.val]?) hentries).trans hentry
    show s'.scan.sp.slot[i] = { s.scan.sp.slot[i] with lo := s'.scan.sp.slot[i].lo, hi := s'.scan.sp.slot[i].hi }
    rw [scan_slot_listed s hentry, scan_slot_listed s' hentry', h.others]
    rfl

/-- The dots after which a machine is before the sprite fetch: the evaluation's and those that follow it. -/
def State.LeadsToSpriteFetch (s : State) : Prop := s.RenderingLine ∧ 320 ≤ s.timing.dot ∧ s.timing.dot < 340

/-- The sprite step: an evaluation lets shifters differ that no rule shows, and the fetch makes them the same again. -/
theorem spriteStep_alike (h : s.Alike (¬ s.BeforeSpriteFetch) s') :
    s.spriteStep.Alike (¬ s.LeadsToSpriteFetch) s'.spriteStep := by
  have htiming := h.timing
  have hline : s'.RenderingLine ↔ s.RenderingLine := by rw [State.RenderingLine, htiming, State.RenderingLine]
  by_cases hidle : s.SpriteIdle
  · have hidle' : s'.SpriteIdle := by rwa [State.SpriteIdle, hline, htiming]
    rw [spriteStep_of_idle hidle, spriteStep_of_idle hidle']
    refine h.mono fun hleads ⟨hl, hge, hle⟩ => hleads ⟨hl, by omega, ?_⟩
    exact lt_of_le_of_ne hle (hidle hl).2.2
  · obtain ⟨hl, hdot⟩ := Classical.not_imp.1 hidle
    have hl' := hline.2 hl
    by_cases hshift : 1 ≤ s.timing.dot ∧ s.timing.dot ≤ 257
    · rw [spriteStep_of_shiftDot hl hshift.1 hshift.2,
        spriteStep_of_shiftDot hl' (by rw [htiming]; exact hshift.1) (by rw [htiming]; exact hshift.2)]
      refine advanceSprites_alike (fun hbefore => ?_) h _
      obtain ⟨-, hge, -⟩ := hbefore
      omega
    · by_cases h320 : s.timing.dot = 320
      · rw [spriteStep_of_dot_320 hl h320, spriteStep_of_dot_320 hl' (by rwa [htiming])]
        exact (evaluateSprites_alike h).mono fun hleads => hleads ⟨hl, by omega, by omega⟩
      · have h340 : s.timing.dot = 340 := by omega
        rw [spriteStep_of_dot_340 hl h340, spriteStep_of_dot_340 hl' (by rwa [htiming])]
        exact fetchSprites_alike h _

/-- The multiplexer sees no slot beyond the count (rule R222). -/
theorem Sprites.Alike.select {sp sp' : Sprites} (h : sp.Alike shown sp') (hshown : shown) : sp'.select = sp.select := by
  have hshows : sp'.shows = sp.shows := funext fun i => by
    unfold Sprites.shows
    rw [h.count]
    by_cases hi : i.val < sp.count
    · rw [h.valid hshown i hi]
    · simp [hi]
  unfold Sprites.select
  rw [hshows]
  split
  next i hfind =>
    have hshow : sp.shows i = true := List.find?_some hfind
    have hi : i.val < sp.count := by
      simp only [Sprites.shows, Bool.and_eq_true, decide_eq_true_iff] at hshow
      obtain ⟨⟨hi, -⟩, -⟩ := hshow
      exact hi
    unfold Sprites.pixelOf
    rw [h.valid hshown i hi]
  next => rfl

theorem State.Alike.fgPixel (h : s.Alike shown s') (hshown : shown) : s'.fgPixel = s.fgPixel := by
  unfold State.fgPixel
  rw [h.sprites.select hshown, h.others]
  rfl

/-- Inside its window the compositor shows valid slots only. -/
theorem compositorStep_alike (hshown : s.inCompositorWindow = true → shown) (h : s.Alike shown s') :
    s.compositorStep.Alike shown s'.compositorStep := by
  have hsp := (compositorStep_kept s).sp
  have hsp' := (compositorStep_kept s').sp
  refine ⟨?others, by rw [hsp, hsp']; exact h.sprites⟩
  rw [hsp', compositorStep_eq, compositorStep_eq, h.inCompositorWindow]
  split
  next hw =>
    have hfg := h.fgPixel (hshown hw)
    have hpixel : s'.outPixel = s.outPixel := by
      unfold State.outPixel
      rw [hfg, h.others]
      rfl
    have hhit : s'.spriteZeroHit = s.spriteZeroHit := by
      unfold State.spriteZeroHit
      rw [hfg, h.sprites.zeroPossible, h.others]
      rfl
    rw [hpixel, hhit, h.others, afterFetch_withSp]
    rfl
  next => exact h.others

theorem Sprites.Alike.clearShifters {sp sp' : Sprites} (h : sp.Alike shown sp') :
    sp.clearShifters.Alike shown sp'.clearShifters :=
  .of_valid h.count h.zeroPossible fun i hi => by
    rw [clearShifters_slot, clearShifters_slot, h.bytes i hi]

/-- The fixed-dot events do not look at the sprite pipeline, and the pre-render clear leaves alike ones alike. -/
theorem timingEvents_alike (h : s.Alike shown s') : s.timingEvents.Alike shown s'.timingEvents := by
  refine ⟨?others, ?sprites⟩
  case others =>
    unfold State.timingEvents
    rw [h.timing, h.onRenderingLine, h.renderingEnabled]
    repeat' split
    all_goals
      rw [h.others]
      rfl
  case sprites =>
    rw [timingEvents_sp, timingEvents_sp, h.timing]
    split
    · exact h.sprites.clearShifters
    · exact h.sprites

end Steps

/-! ### Every operation from alike machines -/

/-- The skip goes from dot 0, so before the sprite fetch there is none. -/
theorem atSprites_beforeSpriteFetch {s : State} (h : s.BeforeSpriteFetch) : s.atSprites.BeforeSpriteFetch := by
  obtain ⟨hl, hge, hle⟩ := h
  have hdot := (oddFrameSkip_dot_eq_iff s (d := s.timing.dot) (by omega)).2 rfl
  rw [State.BeforeSpriteFetch, atSprites_timing, hdot]
  exact ⟨(atSprites_renderingLine s).2 hl, hge, hle⟩

theorem tick_beforeSpriteFetch {s : State} (h : s.atSprites.LeadsToSpriteFetch) : s.tick.BeforeSpriteFetch := by
  obtain ⟨hl, hge, hlt⟩ := h
  rw [atSprites_timing] at hge hlt
  obtain ⟨hdot, hline, -⟩ := (tick_advancesPast s).1 hlt
  refine ⟨?_, by omega, by omega⟩
  rw [State.RenderingLine, hline]
  exact (atSprites_renderingLine s).1 hl

/-- An operation is stuck exactly where it needs a mapper and none is attached (rule R271). -/
theorem exec_eq_ite (i : Instr) (s : State) :
    exec i s = if needsMapper i s = true ∧ s.mapper.attached = false then .fault .missingMapper
      else .next (effectOf i s) := by
  rw [exec_eq, State.withMapper]
  cases needsMapper i s <;> cases s.mapper.attached <;> rfl

section Operations

variable {s s' : State}

/-- A TICK takes alike machines to alike machines, part by part (rule R241). -/
theorem tick_sameButUnseenSlots (h : s.SameButUnseenSlots s') : s.tick.SameButUnseenSlots s'.tick := by
  have hskip := oddFrameSkip_spriteBlind.alike (sameButUnseenSlots_iff.1 h)
  have hbg : s.atSprites.Alike (¬ s.atSprites.BeforeSpriteFetch) s'.atSprites :=
    (backgroundStep_spriteBlind.alike hskip).mono (mt atSprites_beforeSpriteFetch)
  have hwindow : s.atSprites.spriteStep.inCompositorWindow = true → ¬ s.atSprites.LeadsToSpriteFetch := by
    rw [inCompositorWindow_iff, (spriteStep_kept _).timing]
    rintro ⟨-, -, h257⟩ ⟨-, hge, -⟩
    omega
  have hwork := compositorStep_alike hwindow (spriteStep_alike hbg)
  have htick := advance_spriteBlind.alike (timingEvents_alike hwork)
  exact sameButUnseenSlots_iff.2 (htick.mono (mt tick_beforeSpriteFetch))

theorem effectOf_sameButUnseenSlots (i : Instr) (h : s.SameButUnseenSlots s') :
    (effectOf i s).SameButUnseenSlots (effectOf i s') := by
  by_cases ht : i = .tick
  · rw [ht]
    exact tick_sameButUnseenSlots h
  · by_cases hr : i = .reset
    · rw [hr, effectOf, effectOf, (sameButUnseenSlots_iff.1 h).reinitialize]
      exact sameButUnseenSlots_refl _
    · have k := effectOf_portKept ht hr s
      have hbefore : (effectOf i s).BeforeSpriteFetch ↔ s.BeforeSpriteFetch := by
        rw [State.BeforeSpriteFetch, State.RenderingLine, k.scanline, k.dot]
        rfl
      rw [sameButUnseenSlots_iff, hbefore]
      exact (effectOf_spriteBlind ht hr).alike (sameButUnseenSlots_iff.1 h)

/-- Alike machines need the mapper for the same operations: the calls of their TICKs are the same. -/
theorem needsMapper_of_sameButUnseenSlots (i : Instr) (h : s.SameButUnseenSlots s') :
    needsMapper i s' = needsMapper i s := by
  cases i
  case tick =>
    rw [needsMapper, needsMapper, State.callsMapper, State.callsMapper,
      (sameButUnseenSlots_iff.1 (tick_sameButUnseenSlots h)).trace, (sameButUnseenSlots_iff.1 h).trace]
  all_goals rfl

end Operations

/-- Settles O47: alike machines have the same mapper and need it for the same operations, and every effect keeps them
alike. -/
theorem invalidSlotsAreUnobservable : Obligations.InvalidSlotsAreUnobservable := by
  intro i s s' h
  have hneeds := needsMapper_of_sameButUnseenSlots i h
  have hattached := (sameButUnseenSlots_iff.1 h).attached
  have hexec := exec_eq_ite i s
  have hexec' := exec_eq_ite i s'
  rw [hneeds, hattached] at hexec'
  by_cases hstuck : needsMapper i s = true ∧ s.mapper.attached = false
  · rw [if_pos hstuck] at hexec hexec'
    rw [hexec, hexec']
    exact ⟨fun _ ht => (by cases ht), fun _ hf => hf⟩
  · rw [if_neg hstuck] at hexec hexec'
    rw [hexec, hexec']
    refine ⟨fun t ht => ⟨effectOf i s', rfl, ?_⟩, fun _ hf => (by cases hf)⟩
    rw [← Host.Outcome.next.inj ht]
    exact effectOf_sameButUnseenSlots i h

end Sys2Proof.Machine
end

section
/-! PROOFS. The compositor: the two layers of a dot and how they compose, the one pixel that a TICK writes, and the frame
that is whole when the raster wraps. -/

namespace Sys2Proof.Machine

/-! ### The multiplexer and the palette address (rules R224, R225, R228) -/

theorem colourAddr_toNat (p : OutPixel) : (colourAddr p).toNat = 0x3F00 + 4 * p.pal.toNat + p.pixel.toNat := by
  have hpal := p.pal.isLt
  have hpixel := p.pixel.isLt
  simp only [colourAddr, BitVec.toNat_add, BitVec.toNat_shiftLeft, BitVec.toNat_setWidth, BitVec.toNat_ofNat,
    Nat.shiftLeft_eq]
  omega

/-- A background palette 0 … 3 is the same number among the eight palettes. -/
theorem colourAddr_bg (bg : BgPixel) :
    (colourAddr { pixel := bg.pixel, pal := bg.pal.setWidth 3 }).toNat = 0x3F00 + 4 * bg.pal.toNat + bg.pixel.toNat := by
  rw [colourAddr_toNat, BitVec.toNat_setWidth_of_le (by decide)]

section Compose

variable {bg : BgPixel} {fg : FgPixel}

theorem compose_of_both_transparent (hbg : bg.pixel = 0#2) (hfg : fg.pixel = 0#2) :
    compose bg fg = { pixel := 0#2, pal := 0#3 } := if_pos ⟨hbg, hfg⟩

theorem compose_of_bg_transparent (hbg : bg.pixel = 0#2) (hfg : fg.pixel ≠ 0#2) :
    compose bg fg = { pixel := fg.pixel, pal := fg.pal } := by
  rw [compose, if_neg fun h => hfg h.2, if_pos hbg]

theorem compose_of_fg_transparent (hbg : bg.pixel ≠ 0#2) (hfg : fg.pixel = 0#2) :
    compose bg fg = { pixel := bg.pixel, pal := bg.pal.setWidth 3 } := by
  rw [compose, if_neg fun h => hbg h.1, if_neg hbg, if_pos hfg]

theorem compose_of_both_opaque (hbg : bg.pixel ≠ 0#2) (hfg : fg.pixel ≠ 0#2) :
    compose bg fg =
      if fg.front then { pixel := fg.pixel, pal := fg.pal } else { pixel := bg.pixel, pal := bg.pal.setWidth 3 } := by
  rw [compose, if_neg fun h => hbg h.1, if_neg hbg, if_neg hfg]

end Compose

/-- Settles O49, row by row of the table. -/
theorem compositionTable : Obligations.CompositionTable := by
  refine fun bg fg => ⟨fun hbg hfg => ?neither, fun hbg hfg => ?sprite, fun hbg hfg => ?background,
    fun hbg hfg hfront => ?inFront, fun hbg hfg hbehind => ?behind⟩
  case neither => rw [compose_of_both_transparent hbg hfg]; rfl
  case sprite => rw [compose_of_bg_transparent hbg hfg, colourAddr_toNat]
  case background => rw [compose_of_fg_transparent hbg hfg, colourAddr_bg]
  case inFront => rw [compose_of_both_opaque hbg hfg, if_pos hfront, colourAddr_toNat]
  case behind => rw [compose_of_both_opaque hbg hfg, hbehind, if_neg Bool.false_ne_true, colourAddr_bg]

/-! ### The two layers at a dot (rules R221 to R223) -/

/-- A pixel is opaque exactly when one of its two bits is set. -/
theorem bitPair_ne_zero_iff {n : Nat} (hi lo : BitVec n) (i : Nat) :
    bitPair hi lo i ≠ 0#2 ↔ (hi.getLsbD i || lo.getLsbD i) = true := by
  unfold bitPair bitField
  cases hi.getLsbD i <;> cases lo.getLsbD i <;> decide

theorem Sprites.shows_iff (sp : Sprites) (i : Fin 8) :
    sp.shows i = true ↔
      i.val < sp.count ∧ sp.slot[i].x = 0#8 ∧ (sp.slot[i].hi.getLsbD 7 || sp.slot[i].lo.getLsbD 7) = true := by
  rw [← bitPair_ne_zero_iff]
  simp only [Sprites.shows, Slot.pixel, Bool.and_eq_true, decide_eq_true_eq, beq_iff_eq, bne_iff_ne, and_assoc]

/-- A slot shows nothing when it is not valid, still delayed, or transparent. -/
theorem Sprites.shows_eq_false_iff (sp : Sprites) (i : Fin 8) :
    sp.shows i = false ↔
      (i.val < sp.count →
        sp.slot[i].x ≠ 0#8 ∨ (sp.slot[i].hi.getLsbD 7 || sp.slot[i].lo.getLsbD 7) = false) := by
  rw [← Bool.not_eq_true, Sprites.shows_iff, ← Bool.not_eq_true]
  tauto

theorem slotNumbers_eq_finRange : slotNumbers = List.finRange 8 := by decide

/-- The multiplexer takes the lowest slot that shows a pixel (decision D29). -/
theorem Sprites.select_of_lowest {sp : Sprites} {i : Fin 8} (hi : sp.shows i = true)
    (hlow : ∀ j : Fin 8, j < i → sp.shows j = false) : sp.select = sp.pixelOf i := by
  have hfind : slotNumbers.find? sp.shows = some i := by
    rw [slotNumbers_eq_finRange, List.find?_eq_some_iff_getElem]
    refine ⟨hi, i.val, by simp, by simp, fun j hj => ?_⟩
    rw [List.getElem_finRange, hlow _ hj]
    rfl
  rw [Sprites.select, hfind]

theorem Sprites.select_of_none {sp : Sprites} (h : ∀ j : Fin 8, sp.shows j = false) :
    sp.select = FgPixel.transparent := by
  have hfind : slotNumbers.find? sp.shows = none :=
    List.find?_eq_none.2 fun j _ => by rw [h j]; decide
  rw [Sprites.select, hfind]

/-- A sprite's palette is one of 4 … 7 (rule R223). -/
theorem Sprites.pixelOf_pal_toNat (sp : Sprites) (i : Fin 8) :
    (sp.pixelOf i).pal.toNat = 4 + sp.slot[i].attr.toNat % 4 := by
  rw [Sprites.pixelOf, toNat_append_add, attrSpPal, BitVec.extractLsb'_toNat, Nat.shiftRight_zero]
  rfl

/-- A layer shows at a dot when it is enabled and, in the eight leftmost columns, shown there too. -/
theorem layerGate_iff (shown left : Bool) (d : Nat) :
    (shown && (left || decide (9 ≤ d))) = true ↔ shown = true ∧ (left = true ∨ 9 ≤ d) := by
  simp only [Bool.and_eq_true, Bool.or_eq_true, decide_eq_true_eq]

theorem layerGate_closed {shown left : Bool} {d : Nat} (h : shown = false ∨ (left = false ∧ d < 9)) :
    ¬(shown && (left || decide (9 ≤ d))) = true := by
  rw [layerGate_iff]
  rintro ⟨rfl, hleft⟩
  obtain h | ⟨rfl, hd⟩ := h
  · cases h
  · exact hleft.elim Bool.false_ne_true (by omega)

section Layers

variable {s : State}

theorem bgPixel_of_shown (hbg : s.bank.mask.getLsbD 3 = true)
    (hleft : s.bank.mask.getLsbD 1 = true ∨ 9 ≤ s.timing.dot) :
    s.bgPixel =
      { pixel := bitPair s.bg.patHi s.bg.patLo (15 - s.bank.fineX.toNat)
        pal := bitPair s.bg.attrHi s.bg.attrLo (15 - s.bank.fineX.toNat) } :=
  if_pos ((layerGate_iff _ _ _).2 ⟨hbg, hleft⟩)

theorem bgPixel_of_hidden
    (h : s.bank.mask.getLsbD 3 = false ∨ (s.bank.mask.getLsbD 1 = false ∧ s.timing.dot < 9)) :
    s.bgPixel = BgPixel.transparent :=
  if_neg (layerGate_closed h)

theorem fgPixel_of_shown (hsp : s.bank.mask.getLsbD 4 = true)
    (hleft : s.bank.mask.getLsbD 2 = true ∨ 9 ≤ s.timing.dot) : s.fgPixel = s.sp.select :=
  if_pos ((layerGate_iff _ _ _).2 ⟨hsp, hleft⟩)

theorem fgPixel_of_hidden
    (h : s.bank.mask.getLsbD 4 = false ∨ (s.bank.mask.getLsbD 2 = false ∧ s.timing.dot < 9)) :
    s.fgPixel = FgPixel.transparent :=
  if_neg (layerGate_closed h)

/-- With no slot that shows a pixel there is no sprite pixel, whatever the gate. -/
theorem fgPixel_of_none (h : ∀ j : Fin 8, s.sp.shows j = false) : s.fgPixel = FgPixel.transparent := by
  rw [State.fgPixel, Sprites.select_of_none h, ite_self]

end Layers

/-- Settles O48, layer by layer, each shown and hidden. -/
theorem layerPixels : Obligations.LayerPixels := by
  intro s
  refine ⟨fun hbg hleft => ?bgShown, fun h => ?bgHidden, fun i hsp hleft hvalid hx hopaque hlow => ?fgShown,
    fun h => ?fgHidden⟩
  case bgShown => rw [bgPixel_of_shown hbg hleft]; exact ⟨rfl, rfl⟩
  case bgHidden => rw [bgPixel_of_hidden h]; exact ⟨rfl, rfl⟩
  case fgShown =>
    have hshows : s.sp.shows i = true := (Sprites.shows_iff _ _).2 ⟨hvalid, hx, hopaque⟩
    have hbelow : ∀ j : Fin 8, j < i → s.sp.shows j = false := fun j hj =>
      (Sprites.shows_eq_false_iff _ _).2 fun _ => hlow j hj
    rw [fgPixel_of_shown hsp hleft, Sprites.select_of_lowest hshows hbelow]
    exact ⟨rfl, Sprites.pixelOf_pal_toNat _ i, rfl, rfl⟩
  case fgHidden =>
    rcases h with hoff | hclipped | hnone
    · exact fgPixel_of_hidden (.inl hoff)
    · exact fgPixel_of_hidden (.inr hclipped)
    · exact fgPixel_of_none fun j => (Sprites.shows_eq_false_iff _ _).2 (hnone j)

/-! ### The pixel of a TICK (rules R228 to R230) -/

/-- The colour that the compositor of the dot of `s` writes (rule R228). -/
def State.dotColour (s : State) : Colour :=
  (s.atCompositor.readValue (ppuAddr (colourAddr s.atCompositor.outPixel))).setWidth 6

/-- The dot of `s` is one whose pixel is drawn (rule R229). -/
def State.Draws (s : State) : Prop := s.VisibleLine ∧ 1 ≤ s.timing.dot ∧ s.timing.dot ≤ 256

/-- Steps B and S of a TICK leave the back buffer alone. -/
theorem atCompositor_back (s : State) : s.atCompositor.back = s.back :=
  (spriteStep_kept _).back.trans (backgroundStep_kept s).back

theorem dotWork_back_of_draws {s : State} (h : s.Draws) :
    s.dotWork.back = s.back.write (s.timing.dot - 1) s.timing.scanline.toNat s.dotColour := by
  obtain ⟨hv, h1, h256⟩ := h
  have hwindow : s.atCompositor.inCompositorWindow = true :=
    (atCompositor_inCompositorWindow_iff s).2 ⟨hv, h1, by omega⟩
  rw [State.dotWork, ← State.atCompositor, compositorStep_eq, if_pos hwindow, atCompositor_timing, atCompositor_back]
  exact if_pos h256

theorem dotWork_back_of_not_draws {s : State} (h : ¬ s.Draws) : s.dotWork.back = s.back := by
  rw [State.dotWork, ← State.atCompositor, compositorStep_eq]
  split
  next hwindow =>
    obtain ⟨hv, h1, -⟩ := (atCompositor_inCompositorWindow_iff s).1 hwindow
    have h256 : ¬ s.atCompositor.timing.dot ≤ 256 := fun hle =>
      h ⟨hv, h1, atCompositor_timing s ▸ hle⟩
    exact (if_neg h256).trans (atCompositor_back s)
  next => exact atCompositor_back s

/-- Only the compositor of a TICK writes the back buffer. -/
theorem tick_back (s : State) : s.tick.back = s.oddFrameSkip.dotWork.back := by
  rw [tick_eq, (advance_kept _).back, (timingEvents_kept _).back]

/-- Settles O50, from the one write of the compositor. -/
theorem tickDrawsOnePixel : Obligations.TickDrawsOnePixel := by
  intro s hm hskip
  refine ⟨s.tick, exec_attached .tick hm, fun hv h1 h256 => ?drawn, fun h => ?kept⟩ <;>
    rw [tick_back, oddFrameSkip_of_not_skipsDot hskip]
  case drawn =>
    rw [dotWork_back_of_draws ⟨hv, h1, h256⟩]
    exact ⟨Frame.read_write_same _ _ _ _, fun x y hx hxy => Frame.read_write_other _ _ (by omega) hx hxy⟩
  case kept => exact dotWork_back_of_not_draws h

/-! ### TICKs from the queue (log entry 1) -/

/-- The machine without the oldest word of its queue. -/
def State.popWord (s : State) : State := { s with driver := s.driver.tail }

/-- The step of a TICK at the head of the queue: the word leaves it, and the dot runs. -/
def State.tickStep (s : State) : State := s.popWord.tick

theorem step_of_tick_word {s : State} {rest : List HostWord} (hm : s.mapper.attached = true)
    (hd : s.driver = 0x6000#16 :: rest) : step s = .next s.tickStep := by
  rw [step_of_decode_ok hd (decode_encode .tick), State.tickStep, State.popWord, hd]
  exact exec_attached .tick hm

theorem run_succ {k : Nat} {s t : State} (h : step s = .next t) :
    Host.Core.run Sys2Proof.core (k + 1) s = Host.Core.run Sys2Proof.core k t := by
  have hcore : Sys2Proof.core.step s = .next t := h
  simp only [Host.Core.run, hcore]

/-- A queue that starts with `k` TICKs runs them, and no more, in `k` steps. -/
theorem run_ticks {k : Nat} {s : State} {rest : List HostWord} (hm : s.mapper.attached = true)
    (hd : s.driver = List.replicate k 0x6000#16 ++ rest) :
    Host.Core.run Sys2Proof.core k s = .next (State.tickStep^[k] s) ∧ (State.tickStep^[k] s).driver = rest := by
  induction k generalizing s with
  | zero => exact ⟨rfl, hd⟩
  | succ k ih =>
    have kept := tick_kept s.popWord
    rw [run_succ (step_of_tick_word hm hd), Function.iterate_succ_apply]
    refine ih (kept.mapper.attached.trans hm) (kept.driver.trans ?_)
    rw [State.popWord, hd]
    rfl

/-! ### How far the wrap is (rules R242, R246, R247, R250) -/

/-- How many TICKs bring the wrap from dot `dot` of scanline `line`, where `skip` says whether dot 0 of scanline 0 is
skipped. -/
def ticksToWrapFrom (line : Int) (dot : Nat) (skip : Bool) : Nat :=
  341 * (260 - line).toNat + (341 - dot) - if line = -1 ∨ (line = 0 ∧ dot = 0) then skip.toNat else 0

theorem ticksToWrapFrom_next_dot {line : Int} {d : Nat} {skip : Bool} (hd : d < 340)
    (h0 : line = 0 → d = 0 → skip = false) : ticksToWrapFrom line (d + 1) skip + 1 = ticksToWrapFrom line d skip := by
  have hle := skip.toNat_le
  have hnone : line = 0 → d = 0 → skip.toNat = 0 := fun hl hd => congrArg Bool.toNat (h0 hl hd)
  unfold ticksToWrapFrom
  split <;> split <;> omega

theorem ticksToWrapFrom_next_line {line : Int} (skip : Bool) (hge : -1 ≤ line) (hlt : line < 260) :
    ticksToWrapFrom (line + 1) 0 skip + 1 = ticksToWrapFrom line 340 skip := by
  have hle := skip.toNat_le
  unfold ticksToWrapFrom
  split <;> split <;> omega

/-- The conditions on the frame of the skip of rule R242. -/
def State.skipsInFrame (s : State) : Bool := s.timing.oddFrame && s.renderingEnabled

/-- How many TICKs bring the next wrap. -/
def State.ticksToWrap (s : State) : Nat := ticksToWrapFrom s.timing.scanline s.timing.dot s.skipsInFrame

theorem skipsDot_iff {s : State} :
    s.SkipsDot ↔ s.timing.scanline = 0 ∧ s.timing.dot = 0 ∧ s.skipsInFrame = true := by
  rw [State.skipsInFrame, Bool.and_eq_true]
  exact Iff.rfl

/-- The skipped dot is counted as skipped already. -/
theorem ticksToWrap_eq_from_processed (s : State) :
    s.ticksToWrap = ticksToWrapFrom s.timing.scanline s.oddFrameSkip.timing.dot s.skipsInFrame := by
  by_cases h : s.SkipsDot
  · obtain ⟨hline, hdot, hskip⟩ := skipsDot_iff.1 h
    rw [oddFrameSkip_dot_of_skipsDot h, State.ticksToWrap, hline, hdot, hskip]
    rfl
  · rw [oddFrameSkip_of_not_skipsDot h, State.ticksToWrap]

/-- No TICK processes a dot that is to be skipped. -/
theorem skipsInFrame_eq_false_of_processed_dot {s : State} (hline : s.timing.scanline = 0)
    (hdot : s.oddFrameSkip.timing.dot = 0) : s.skipsInFrame = false := by
  by_cases h : s.SkipsDot
  · rw [oddFrameSkip_dot_of_skipsDot h] at hdot
    cases hdot
  · rw [oddFrameSkip_of_not_skipsDot h] at hdot
    exact Bool.eq_false_iff.2 fun hskip => h (skipsDot_iff.2 ⟨hline, hdot, hskip⟩)

theorem processed_dot_le {s : State} (h : s.timing.dot ≤ 340) : s.oddFrameSkip.timing.dot ≤ 340 := by
  by_cases hskip : s.SkipsDot
  · rw [oddFrameSkip_dot_of_skipsDot hskip]
    decide
  · rwa [oddFrameSkip_of_not_skipsDot hskip]

theorem tick_skipsInFrame {s : State} (h : s.tick.timing.oddFrame = s.timing.oddFrame) :
    s.tick.skipsInFrame = s.skipsInFrame := by
  rw [State.skipsInFrame, h, State.renderingEnabled, (tick_kept s).mask]
  rfl

/-- The raster after a TICK that is not the wrap's: the next dot, or the start of the next scanline. -/
theorem tick_raster_before_wrap {s : State} (hr : s.timing.InRange) (h : s.ticksToWrap ≠ 1) :
    s.tick.timing.oddFrame = s.timing.oddFrame ∧
      ((s.oddFrameSkip.timing.dot < 340 ∧ s.tick.timing.dot = s.oddFrameSkip.timing.dot + 1 ∧
          s.tick.timing.scanline = s.timing.scanline) ∨
        (s.oddFrameSkip.timing.dot = 340 ∧ s.timing.scanline < 260 ∧ s.tick.timing.dot = 0 ∧
          s.tick.timing.scanline = s.timing.scanline + 1)) := by
  have hle := processed_dot_le hr.dot_le
  obtain ⟨hsameLine, hnextLine, -⟩ := tick_advancesPast s
  by_cases hd : s.oddFrameSkip.timing.dot < 340
  · obtain ⟨hdot, hline, -, hodd, -⟩ := hsameLine hd
    exact ⟨hodd, .inl ⟨hd, hdot, hline⟩⟩
  · have hlast : s.oddFrameSkip.timing.dot = 340 := by omega
    have hl : s.timing.scanline < 260 := lt_of_le_of_ne hr.scanline_le fun hwrap => h (by
      rw [ticksToWrap_eq_from_processed, hlast, hwrap]
      rfl)
    obtain ⟨hdot, hline, -, hodd, -⟩ := hnextLine hlast.ge hl
    exact ⟨hodd, .inr ⟨hlast, hl, hdot, hline⟩⟩

/-- Every TICK but that of (260, 340) keeps the raster in range and brings the wrap one TICK nearer. -/
theorem tick_ticksToWrap {s : State} (hr : s.timing.InRange) (h : s.ticksToWrap ≠ 1) :
    s.tick.timing.InRange ∧ s.tick.ticksToWrap + 1 = s.ticksToWrap := by
  have hge := hr.scanline_ge
  have hle := hr.scanline_le
  obtain ⟨hodd, ⟨hd, hdot, hline⟩ | ⟨hd, hl, hdot, hline⟩⟩ := tick_raster_before_wrap hr h <;>
    rw [ticksToWrap_eq_from_processed s, State.ticksToWrap, tick_skipsInFrame hodd, hdot, hline]
  · exact ⟨⟨by omega, by omega, by omega⟩, ticksToWrapFrom_next_dot hd skipsInFrame_eq_false_of_processed_dot⟩
  · rw [hd]
    exact ⟨⟨by omega, by omega, by omega⟩, ticksToWrapFrom_next_line _ hge hl⟩

/-- The wrap is one TICK away at (260, 340) only. -/
theorem raster_of_ticksToWrap_eq_one {s : State} (hr : s.timing.InRange) (h : s.ticksToWrap = 1) :
    s.timing.scanline = 260 ∧ s.timing.dot = 340 := by
  have hline := hr.scanline_le
  have hdot := hr.dot_le
  have hskip := s.skipsInFrame.toNat_le
  unfold State.ticksToWrap ticksToWrapFrom at h
  split at h <;> omega

/-- The wrap publishes the back buffer (rule R248). -/
theorem tick_front_at_wrap {s : State} (hline : s.timing.scanline = 260) (hdot : s.timing.dot = 340) :
    s.tick.front = s.back := by
  obtain ⟨-, -, hwrap⟩ := tick_advancesPast s
  rw [oddFrameSkip_of_not_skipsDot (State.not_skipsDot_of_scanline (by omega))] at hwrap
  obtain ⟨-, -, -, -, hfront, -⟩ := hwrap hdot.ge hline.ge
  exact hfront

/-! ### The pixels drawn so far (rules R229, R230) -/

/-- Pixel (x, y) is in the list of written pixels, so it is no power-on draw (log entry 4). -/
def Frame.Written (f : Frame) (x y : Nat) : Prop := (Cells.lookup f.pixels (pixelIndex x y)).isSome = true

theorem Frame.written_write_same (f : Frame) (x y : Nat) (c : Colour) : (f.write x y c).Written x y := by
  simp [Frame.Written, Frame.write]

/-- A write takes no pixel off the list. -/
theorem Frame.Written.write {f : Frame} {x y : Nat} (h : f.Written x y) (x' y' : Nat) (c : Colour) :
    (f.write x' y' c).Written x y := by
  by_cases he : pixelIndex x y = pixelIndex x' y'
  · simp [Frame.Written, Frame.write, he]
  · rwa [Frame.Written, Frame.write, Cells.lookup_write_other _ _ he]

/-- Every pixel of the frame `f` that lies before dot `dot` of scanline `line` is written. -/
def Frame.WrittenBefore (f : Frame) (line : Int) (dot : Nat) : Prop :=
  ∀ x y : Nat, x < 256 → y < 240 → (y : Int) < line ∨ ((y : Int) = line ∧ x + 1 < dot) → f.Written x y

/-- Every pixel of this frame whose dot is over is written. -/
def State.DrawnSoFar (s : State) : Prop := s.back.WrittenBefore s.timing.scanline s.timing.dot

theorem dotWork_written {s : State} {x y : Nat} (h : s.back.Written x y) : s.dotWork.back.Written x y := by
  by_cases hdraw : s.Draws
  · rw [dotWork_back_of_draws hdraw]
    exact h.write _ _ _
  · rwa [dotWork_back_of_not_draws hdraw]

/-- The work of a dot writes the dot's own pixel, if it has one. -/
theorem dotWork_writtenBefore {s : State} (h : s.DrawnSoFar) :
    s.dotWork.back.WrittenBefore s.timing.scanline (s.timing.dot + 1) := by
  intro x y hx hy hbefore
  by_cases hnew : (y : Int) = s.timing.scanline ∧ x + 1 = s.timing.dot
  · obtain ⟨hline, hdot⟩ := hnew
    have hdraw : s.Draws := ⟨⟨by omega, by omega⟩, by omega, by omega⟩
    obtain ⟨rfl, rfl⟩ : x = s.timing.dot - 1 ∧ y = s.timing.scanline.toNat := by omega
    rw [dotWork_back_of_draws hdraw]
    exact Frame.written_write_same _ _ _ _
  · exact dotWork_written (h x y hx hy (by omega))

/-- The skipped dot has no pixel. -/
theorem oddFrameSkip_drawnSoFar {s : State} (h : s.DrawnSoFar) : s.oddFrameSkip.DrawnSoFar := by
  by_cases hskip : s.SkipsDot
  · have hback : s.oddFrameSkip.back = s.back := by rw [oddFrameSkip_eq]
    rw [State.DrawnSoFar, hback, oddFrameSkip_scanline, oddFrameSkip_dot_of_skipsDot hskip]
    exact fun x y hx hy hbefore => h x y hx hy (by omega)
  · rwa [oddFrameSkip_of_not_skipsDot hskip]

theorem tick_drawnSoFar {s : State} (hr : s.timing.InRange) (hw : s.ticksToWrap ≠ 1) (h : s.DrawnSoFar) :
    s.tick.DrawnSoFar := by
  have hwritten := dotWork_writtenBefore (oddFrameSkip_drawnSoFar h)
  rw [← tick_back, oddFrameSkip_scanline] at hwritten
  obtain ⟨-, ⟨-, hdot, hline⟩ | ⟨hd, -, hdot, hline⟩⟩ := tick_raster_before_wrap hr hw <;>
    rw [State.DrawnSoFar, hdot, hline]
  · exact hwritten
  · exact fun x y hx hy hbefore => hwritten x y hx hy (by omega)

/-- The TICKs up to the wrap publish a frame with every pixel written: by induction on how many they are. -/
theorem ticks_to_wrap_publish_written {k : Nat} {s : State} (hr : s.timing.InRange) (hk : s.ticksToWrap = k + 1)
    (hdrawn : s.DrawnSoFar) {x y : Nat} (hx : x < 256) (hy : y < 240) :
    (State.tickStep^[k + 1] s).front.Written x y := by
  induction k generalizing s with
  | zero =>
    obtain ⟨hline, hdot⟩ := raster_of_ticksToWrap_eq_one hr hk
    rw [Function.iterate_one, State.tickStep, tick_front_at_wrap (s := s.popWord) hline hdot]
    exact hdrawn x y hx hy (.inl (by omega))
  | succ k ih =>
    have hw : s.popWord.ticksToWrap ≠ 1 := fun h => by
      have hone := hk.symm.trans h
      omega
    obtain ⟨hr', hk'⟩ := tick_ticksToWrap (s := s.popWord) hr hw
    rw [Function.iterate_succ_apply]
    exact ih hr' (Nat.succ.inj (hk'.trans hk)) (tick_drawnSoFar (s := s.popWord) hr hw hdrawn)

/-- Before scanline 0 no pixel of this frame is due. -/
theorem drawnSoFar_of_preRender {s : State} (h : s.timing.scanline = -1) : s.DrawnSoFar :=
  fun _ _ _ _ hbefore => absurd hbefore (by omega)

/-- The length of a frame (inference of rule R250). -/
theorem ticksToWrap_at_start {s : State} (hline : s.timing.scanline = -1) (hdot : s.timing.dot = 0) :
    s.ticksToWrap =
      if s.timing.oddFrame = true ∧ (s.bank.mask.getLsbD 3 || s.bank.mask.getLsbD 4) = true then 89341 else 89342 := by
  have hskip : s.skipsInFrame = true ↔
      s.timing.oddFrame = true ∧ (s.bank.mask.getLsbD 3 || s.bank.mask.getLsbD 4) = true := Bool.and_eq_true_iff
  rw [State.ticksToWrap, hline, hdot, ← if_congr hskip rfl rfl]
  cases s.skipsInFrame <;> rfl

/-- Settles O32, from the pixels drawn so far at each TICK up to the wrap. -/
theorem publishedFrameIsFullyDrawn : Obligations.PublishedFrameIsFullyDrawn := by
  intro s k rest hm hline hdot hd hk
  have hr : s.timing.InRange := ⟨by omega, by omega, by omega⟩
  have hwrap : s.ticksToWrap = k := (ticksToWrap_at_start hline hdot).trans hk.symm
  obtain ⟨hrun, -⟩ := run_ticks hm hd
  refine ⟨State.tickStep^[k] s, hrun, fun x y hx hy => ?_⟩
  obtain _ | k := k
  · split at hk <;> cases hk
  · exact ticks_to_wrap_publish_written hr hwrap (drawnSoFar_of_preRender hline) hx hy

end Sys2Proof.Machine
end

section
/-! PROOFS. The raster of a TICK: the dot that follows the one it processes, the skip as the TICK of dot 1, and the TICKs of
a frame counted down to its wrap. -/

namespace Sys2Proof.Machine

/-- Settles O27: the dot that a TICK processes is the one after the skip, and the TICK advances past it. -/
theorem tickAdvancesTheRaster : Obligations.TickAdvancesTheRaster := by
  intro s d hm hd
  obtain rfl := State.processes_iff.1 hd
  exact ⟨s.tick, exec_attached .tick hm, tick_advancesPast s⟩

/-! ### The odd-frame skip (rule R242) -/

theorem oddFrameSkip_of_skipsDot {s : State} (h : s.SkipsDot) : s.oddFrameSkip = { s with timing.dot := 1 } := if_pos h

/-- Nothing is skipped from dot 1, so both TICKs start their work from the same machine. -/
theorem tick_of_skipsDot {s : State} (h : s.SkipsDot) : s.tick = ({ s with timing.dot := 1 } : State).tick := by
  have hnoSkip : ¬ ({ s with timing.dot := 1 } : State).SkipsDot := fun ⟨_, hdot, _⟩ => Nat.one_ne_zero hdot
  rw [tick_eq, tick_eq, oddFrameSkip_of_skipsDot h, oddFrameSkip_of_not_skipsDot hnoSkip]

/-- Two machines with the same TICK, the same calls so far and the same mapper answer TICK alike. -/
theorem exec_tick_congr {s s' : State} (htick : s.tick = s'.tick) (htrace : s.trace = s'.trace)
    (hmapper : s.mapper = s'.mapper) : exec .tick s = exec .tick s' := by
  rw [exec_eq_ite, exec_eq_ite, needsMapper, needsMapper, State.callsMapper, State.callsMapper, effectOf, effectOf,
    htick, htrace, hmapper]

/-- Settles O28: the skip leaves the machine at dot 1, and the TICK advances past that dot. -/
theorem oddFrameSkipsDotZero : Obligations.OddFrameSkipsDotZero := by
  refine fun s h => ⟨exec_tick_congr (tick_of_skipsDot h) rfl rfl, fun hm => ⟨s.tick, exec_attached .tick hm, ?_⟩⟩
  have ⟨hline, _⟩ := h
  obtain ⟨hsameLine, -⟩ := tick_advancesPast s
  rw [oddFrameSkip_dot_of_skipsDot h] at hsameLine
  obtain ⟨hdot, hline', -⟩ := hsameLine (by decide)
  exact ⟨hline'.trans hline, hdot⟩

/-! ### The TICKs of one frame (rules R247, R248, R250) -/

/-- `t` is in the frame of `s`: no wrap lies between, so neither the frame signals nor `front` moved. -/
structure State.SameFrame (s t : State) : Prop where
  frameComplete : t.timing.frameComplete = s.timing.frameComplete
  oddFrame : t.timing.oddFrame = s.timing.oddFrame
  front : t.front = s.front

theorem State.SameFrame.refl (s : State) : s.SameFrame s := ⟨rfl, rfl, rfl⟩

theorem State.SameFrame.trans {s t u : State} (h : s.SameFrame t) (h' : t.SameFrame u) : s.SameFrame u :=
  ⟨h'.frameComplete.trans h.frameComplete, h'.oddFrame.trans h.oddFrame, h'.front.trans h.front⟩

/-- A TICK that is not the wrap's stays in its frame. -/
theorem tick_sameFrame {s : State} (hr : s.timing.InRange) (h : s.ticksToWrap ≠ 1) : s.SameFrame s.tick := by
  obtain ⟨hsameLine, hnextLine, -⟩ := tick_advancesPast s
  obtain ⟨-, ⟨hd, -, -⟩ | ⟨hd, hl, -, -⟩⟩ := tick_raster_before_wrap hr h
  · obtain ⟨-, -, hcomplete, hodd, hfront⟩ := hsameLine hd
    exact ⟨hcomplete, hodd, hfront⟩
  · obtain ⟨-, -, hcomplete, hodd, hfront⟩ := hnextLine hd.ge hl
    exact ⟨hcomplete, hodd, hfront⟩

/-- A TICK from the queue does to the raster what a TICK does: the queue is no part of it. -/
theorem tickStep_before_wrap {s : State} (hr : s.timing.InRange) (h : s.ticksToWrap ≠ 1) :
    s.SameFrame s.tickStep ∧ s.tickStep.timing.InRange ∧ s.tickStep.ticksToWrap + 1 = s.ticksToWrap := by
  obtain ⟨hcomplete, hodd, hfront⟩ := tick_sameFrame (s := s.popWord) hr h
  exact ⟨⟨hcomplete, hodd, hfront⟩, tick_ticksToWrap (s := s.popWord) hr h⟩

/-- Fewer TICKs than bring the wrap stay in the frame, each one TICK nearer to the wrap. -/
theorem ticks_before_wrap {k : Nat} {s : State} (hr : s.timing.InRange) (hk : k < s.ticksToWrap) :
    s.SameFrame (State.tickStep^[k] s) ∧ (State.tickStep^[k] s).timing.InRange ∧
      (State.tickStep^[k] s).ticksToWrap + k = s.ticksToWrap := by
  induction k with
  | zero => exact ⟨.refl s, hr, rfl⟩
  | succ k ih =>
    obtain ⟨hsame, hr', hleft⟩ := ih (by omega)
    obtain ⟨hstep, hr'', hnearer⟩ := tickStep_before_wrap hr' (by omega)
    rw [Function.iterate_succ_apply']
    exact ⟨hsame.trans hstep, hr'', by omega⟩

/-- The last of the TICKs that bring the wrap is that of (260, 340): it starts the next frame and publishes the back
buffer. -/
theorem tick_at_wrap {s : State} (hr : s.timing.InRange) (h : s.ticksToWrap = 1) :
    s.tick.timing.scanline = -1 ∧ s.tick.timing.dot = 0 ∧ s.tick.timing.frameComplete = true ∧
      s.tick.timing.oddFrame = !s.timing.oddFrame ∧ s.tick.front = s.tick.back := by
  obtain ⟨hline, hdot⟩ := raster_of_ticksToWrap_eq_one hr h
  obtain ⟨-, -, hwrap⟩ := tick_advancesPast s
  rw [oddFrameSkip_of_not_skipsDot (State.not_skipsDot_of_scanline (by omega))] at hwrap
  obtain ⟨hdot', hline', hcomplete, hodd, hfront, hback⟩ := hwrap hdot.ge hline.ge
  exact ⟨hline', hdot', hcomplete, hodd, hfront.trans hback.symm⟩

/-- The TICKs that bring the wrap end at the start of the next frame. -/
theorem ticks_to_wrap {k : Nat} {s : State} (hr : s.timing.InRange) (hk : s.ticksToWrap = k + 1) :
    let t := State.tickStep^[k + 1] s
    t.timing.scanline = -1 ∧ t.timing.dot = 0 ∧ t.timing.frameComplete = true ∧
      t.timing.oddFrame = !s.timing.oddFrame ∧ t.front = t.back := by
  obtain ⟨hsame, hr', hleft⟩ := ticks_before_wrap (k := k) hr (by omega)
  have hlast : (State.tickStep^[k] s).ticksToWrap = 1 := by omega
  rw [Function.iterate_succ_apply', ← hsame.oddFrame]
  exact tick_at_wrap (s := (State.tickStep^[k] s).popWord) hr' hlast

/-- Settles O31: `n` is the number of TICKs that bring the wrap from the start of a frame. -/
theorem frameLength : Obligations.FrameLength := by
  intro s k rest hm hline hdot hd n hn
  have hr : s.timing.InRange := ⟨by omega, by omega, by omega⟩
  obtain rfl : n = s.ticksToWrap := hn.trans (ticksToWrap_at_start hline hdot).symm
  obtain ⟨hrun, hdriver⟩ := run_ticks hm hd
  refine ⟨fun hk => ⟨_, hrun, hdriver, ?before⟩, fun hk => ⟨_, hrun, hdriver, ?wrap⟩⟩
  case before =>
    obtain ⟨⟨hcomplete, hodd, hfront⟩, -, -⟩ := ticks_before_wrap hr hk
    exact ⟨hcomplete, hodd, hfront⟩
  case wrap =>
    obtain _ | k := k
    · split at hn <;> omega
    · exact ticks_to_wrap hr hk.symm

end Sys2Proof.Machine
end

section
/-! PROOFS. Host control (rules R255 to R257), and the observation of a run (rule R287) built up word by word: an
operation gives back at most one byte and takes back nothing, so the logs of a run are those of its first operation and
then those of the rest. -/

namespace Sys2Proof.Machine

/-! ### Host control (rules R255 to R257) -/

/-- Every slot after reset holds 0xFF bytes and empty shifters (rule R49). -/
theorem Sprites.reset_slot (i : Fin 8) : Sprites.reset.slot[i] = Slot.reset := Vector.getElem_replicate i.isLt

/-- Settles O57: RESET sets the four groups of registers to their power-on values, and nothing else. -/
theorem resetResult : Obligations.ResetResult := fun s =>
  ⟨s.reinitialize, exec_noMapper rfl, rfl, rfl, rfl, rfl, rfl, rfl, rfl, rfl, rfl, rfl, rfl, Sprites.reset_slot, rfl,
    rfl, rfl, rfl, rfl, rfl, rfl, rfl⟩

/-- Settles O58: the effect of each acknowledge is to clear its output. -/
theorem acknowledgesClearTheirOutput : Obligations.AcknowledgesClearTheirOutput := fun _ =>
  ⟨exec_noMapper rfl, exec_noMapper rfl⟩

/-! ### What an operation adds to the logs (rules R258, R287) -/

/-- An operation gives back one byte when it is a read or a debug read, and none otherwise. -/
theorem effectOf_returned_cases (i : Instr) (s : State) :
    ((i.fields.op = 1#3 ∨ i.fields.op = 2#3) ∧ ∃ b, (effectOf i s).returned = b :: s.returned) ∨
      ((i.fields.op ≠ 1#3 ∧ i.fields.op ≠ 2#3) ∧ (effectOf i s).returned = s.returned) := by
  have hwr : HostClass.wr.bits ≠ 1#3 ∧ HostClass.wr.bits ≠ 2#3 := by decide
  cases i
  case rdData => rw [effectOf, readDataPort_eq]; exact .inl ⟨.inl rfl, _, rfl⟩
  case rdCtrl | rdMask | rdStatus | rdOamaddr | rdOamdata | rdScroll | rdAddr => exact .inl ⟨.inl rfl, _, rfl⟩
  case dbgCtrl | dbgMask | dbgStatus | dbgOamaddr | dbgOamdata | dbgScroll | dbgAddr | dbgData =>
    exact .inl ⟨.inr rfl, _, rfl⟩
  case wrScroll d => rw [effectOf_wrScroll]; exact .inr ⟨hwr, rfl⟩
  case wrAddr d => rw [effectOf_wrAddr]; exact .inr ⟨hwr, rfl⟩
  case wrCtrl | wrMask | wrStatus | wrOamaddr | wrOamdata | wrData => exact .inr ⟨hwr, rfl⟩
  case tick => exact .inr ⟨by decide, (tick_kept s).returned⟩
  case reset | ackNmi | ackFrame => exact .inr ⟨by decide, rfl⟩

/-- From `s` to `t` no byte and no mapper call is taken back: both logs keep what they held. -/
structure LogsGrow (s t : State) : Prop where
  returned : s.returned <:+ t.returned
  trace : s.trace <:+ t.trace

theorem LogsGrow.refl (s : State) : LogsGrow s s := ⟨List.suffix_refl _, List.suffix_refl _⟩

theorem LogsGrow.trans {s t u : State} (h : LogsGrow s t) (h' : LogsGrow t u) : LogsGrow s u :=
  ⟨h.returned.trans h'.returned, h.trace.trans h'.trace⟩

theorem effectOf_logsGrow (i : Instr) (s : State) : LogsGrow s (effectOf i s) := by
  refine ⟨?_, effectOf_trace i s⟩
  rcases effectOf_returned_cases i s with ⟨-, b, hb⟩ | ⟨-, hkept⟩
  · exact hb ▸ List.suffix_cons b _
  · exact hkept ▸ List.suffix_refl _

theorem step_logsGrow {s t : State} (h : step s = .next t) : LogsGrow s t := by
  rcases step_next h with rfl | ⟨i, rest, rfl⟩
  · exact .refl _
  · have ⟨hreturned, htrace⟩ := effectOf_logsGrow i { s with driver := rest }
    exact ⟨hreturned, htrace⟩

/-! ### The run, step by step -/

theorem runOutputs_succ {n : Nat} {s t : State} (h : step s = .next t) :
    runOutputs (n + 1) s = (runOutputs n t).map fun (os, u) => (t.outputs :: os, u) := by
  simp only [runOutputs, h]

/-- A run whose first step has no next state has no outputs. -/
theorem runOutputs_succ_eq_none {n : Nat} {s : State} (h : ∀ t, step s ≠ .next t) :
    runOutputs (n + 1) s = none := by
  rw [runOutputs]
  split
  next t ht => exact absurd ht (h t)
  all_goals rfl

theorem runOutputs_logsGrow {n : Nat} {s u : State} {os : List Outputs} (h : runOutputs n s = some (os, u)) :
    LogsGrow s u := by
  induction n generalizing s os with
  | zero => cases h; exact .refl _
  | succ n ih =>
    cases hs : step s with
    | next t =>
      rw [runOutputs_succ hs, Option.map_eq_some_iff] at h
      obtain ⟨⟨os', u'⟩, hrest, heq⟩ := h
      cases heq
      exact (step_logsGrow hs).trans (ih hrest)
    | fault | refused => rw [runOutputs_succ_eq_none (by simp [hs])] at h; cases h

/-! ### The observation, word by word -/

/-- The entries newer than an old log are what was put before it, oldest first. -/
theorem newEntries_append {α : Type} (new old : List α) : newEntries old.length (new ++ old) = new.reverse := by
  simp [newEntries]

/-- The entries of two stretches of a log are those of the first and then those of the second. -/
theorem newEntries_trans {α : Type} {a b c : List α} (hab : a <:+ b) (hbc : b <:+ c) :
    newEntries a.length c = newEntries a.length b ++ newEntries b.length c := by
  obtain ⟨first, rfl⟩ := hab
  obtain ⟨second, rfl⟩ := hbc
  rw [newEntries_append, newEntries_append, ← List.append_assoc, newEntries_append, List.reverse_append]

/-- The observation of an operation that leads from `s` to `t`, followed by what is observed from `t` on. -/
def Observation.after (s t : State) (o : Observation) : Observation :=
  { bytes := newEntries s.returned.length t.returned ++ o.bytes
    calls := newEntries s.trace.length t.trace ++ o.calls
    outputs := t.outputs :: o.outputs }

theorem observe_nil (s : State) : observe s [] = some { bytes := [], calls := [], outputs := [] } := by
  simp [observe, runOutputs, newEntries]

/-- The observation of an accepted word and more words is that of its operation and then that of the rest. -/
theorem observe_cons {s t : State} {w : HostWord} {ws : List HostWord} {i : Instr} (hi : decode w = .ok i)
    (ht : exec i { s with driver := ws } = .next t) : observe s (w :: ws) = (observe t ws).map (.after s t) := by
  have hstep : step { s with driver := w :: ws } = .next t := (step_of_decode_ok rfl hi).trans ht
  have hdriver : t.driver = ws := by rw [exec_next ht, effectOf_driver]
  have hqueue : { t with driver := ws } = t := by rw [← hdriver]
  rw [observe, List.length_cons, runOutputs_succ hstep, observe, hqueue]
  cases hrun : runOutputs ws.length t with
  | none => rfl
  | some run =>
    have hfirst : LogsGrow s t := ⟨(step_logsGrow hstep).returned, (step_logsGrow hstep).trace⟩
    have hrest : LogsGrow t run.2 := runOutputs_logsGrow hrun
    simp only [Option.map_some, Observation.after, newEntries_trans hfirst.returned hrest.returned,
      newEntries_trans hfirst.trace hrest.trace]

/-- A run that cannot take its first step has no observation. -/
theorem observe_eq_none {s : State} {w : HostWord} {ws : List HostWord}
    (h : ∀ t, step { s with driver := w :: ws } ≠ .next t) : observe s (w :: ws) = none := by
  rw [observe, List.length_cons, runOutputs_succ_eq_none h]
  rfl

/-- Settles O56, from what an operation adds to the logs and the observation word by word. -/
theorem observationOfARun : Obligations.ObservationOfARun := by
  refine ⟨fun i s t ht => ?logs, observe_nil, fun s ws w i t hi ht => ?cons,
    fun s ws w h => observe_eq_none fun t ht => ?stop⟩
  case logs =>
    obtain rfl := exec_next ht
    obtain ⟨calls, hcalls⟩ := effectOf_trace i s
    refine ⟨⟨calls, hcalls.symm⟩, ?_⟩
    rcases effectOf_returned_cases i s with ⟨hread, hbyte⟩ | ⟨⟨hrd, hdbg⟩, hkept⟩
    · exact ⟨fun _ => hbyte, fun ⟨hrd, hdbg⟩ => absurd hread (not_or.2 ⟨hrd, hdbg⟩)⟩
    · exact ⟨fun hread => absurd hread (not_or.2 ⟨hrd, hdbg⟩), fun _ => hkept⟩
  case cons =>
    rw [observe_cons hi ht]
    refine ⟨fun o ho => ?_, fun hnone => by rw [hnone]; rfl⟩
    obtain ⟨⟨bytes, hbytes⟩, ⟨calls, hcalls⟩⟩ := exec_next ht ▸ effectOf_logsGrow i { s with driver := ws }
    refine ⟨bytes, calls, hbytes.symm, hcalls.symm, ?_⟩
    rw [ho, Option.map_some, Observation.after, ← hbytes, ← hcalls, newEntries_append, newEntries_append,
      State.outputs]
  case stop =>
    rcases h with ⟨e, he⟩ | ⟨i, f, hi, hf⟩
    · rw [step_of_decode_error rfl he] at ht; cases ht
    · rw [step_of_decode_ok rfl hi, hf] at ht; cases ht

end Sys2Proof.Machine
end

section
/-! PROOFS. What the block does instead of raising an exception (rules R270 to R273): a refused word has no step, no
operation fails while the driver keeps its duty, and TICK alone raises the one request. -/

namespace Sys2Proof.Machine

/-- Settles O5: the step on a refused word, and the step with no word issued. -/
theorem stepRefusesAndIdles : Obligations.StepRefusesAndIdles :=
  ⟨fun _ _ _ _ => step_of_decode_error, fun _ => step_of_driver_nil⟩

/-! ### The driver's duty along a run (rule R305) -/

/-- The duty at an operation does not look at the words that are still to come. -/
theorem keepsMapperRule_driver (i : Instr) (s : State) (ws : List HostWord) :
    keepsMapperRule i { s with driver := ws } = keepsMapperRule i s := rfl

/-- The TICK of the reset raster position asks for a mapper, though it makes no call (log entry 16). -/
theorem asksForMapper_tick_of_reset_timing {s : State} (h : s.timing = State.reset.timing) :
    asksForMapper .tick s = true := by
  rw [asksForMapper, State.onRenderingLine, h]
  rfl

/-- The duty in a run of an accepted word and more words: at its operation, and in the rest. -/
theorem runKeepsMapperRule_cons {s t : State} {w : HostWord} {ws : List HostWord} {i : Instr} (hi : decode w = .ok i)
    (ht : exec i { s with driver := ws } = .next t) :
    runKeepsMapperRule (w :: ws) s = (keepsMapperRule i s && runKeepsMapperRule ws t) := by
  simp only [runKeepsMapperRule, hi, ht]

/-- A driver that keeps the duty at the first word of a run has an operation that takes its step. -/
theorem exec_of_runKeepsMapperRule {s : State} {w : HostWord} {ws : List HostWord} {i : Instr} (hi : decode w = .ok i)
    (h : runKeepsMapperRule (w :: ws) s = true) :
    exec i { s with driver := ws } = .next (effectOf i { s with driver := ws }) := by
  simp only [runKeepsMapperRule, hi, Bool.and_eq_true] at h
  exact exec_keepsMapperRule ((keepsMapperRule_driver i s ws).trans h.1)

/-- A run of decodable words in which the driver keeps the duty is never stuck. -/
theorem observe_isSome_of_runKeepsMapperRule {ws : List HostWord} {s : State} (hws : ∀ w ∈ ws, ∃ i, decode w = .ok i)
    (h : runKeepsMapperRule ws s = true) : (observe s ws).isSome = true := by
  induction ws generalizing s with
  | nil => rw [observe_nil]; rfl
  | cons w ws ih =>
    obtain ⟨i, hi⟩ := hws w List.mem_cons_self
    have hexec := exec_of_runKeepsMapperRule hi h
    rw [runKeepsMapperRule_cons hi hexec, Bool.and_eq_true] at h
    rw [observe_cons hi hexec, Option.isSome_map]
    exact ih (fun w' hw' => hws w' (List.mem_cons_of_mem _ hw')) h.2

/-- Settles O25: an operation has its effect with a mapper attached and while the driver keeps the duty, and so word by
word along a run. -/
theorem everyOperationCompletesWithAMapper : Obligations.EveryOperationCompletesWithAMapper := by
  refine ⟨fun i s hm => ⟨_, exec_attached i hm⟩, fun i s hk => ⟨_, exec_keepsMapperRule hk⟩, fun s htiming hm => ?_,
    fun ws s => observe_isSome_of_runKeepsMapperRule⟩
  rw [keepsMapperRule, hm, asksForMapper_tick_of_reset_timing htiming]
  rfl

/-! ### The interrupt request (rules R244, R256, R273, R274) -/

/-- ACK_NMI and RESET clear the request; every other operation but TICK keeps it. -/
theorem effectOf_nmiPending {i : Instr} (ht : i ≠ .tick) (s : State) :
    ((i = .ackNmi ∨ i = .reset) ∧ (effectOf i s).timing.nmiPending = false) ∨
      (effectOf i s).timing.nmiPending = s.timing.nmiPending := by
  cases i
  case tick => exact absurd rfl ht
  case ackNmi => exact .inl ⟨.inl rfl, rfl⟩
  case reset => exact .inl ⟨.inr rfl, rfl⟩
  case wrScroll d => rw [effectOf_wrScroll]; exact .inr rfl
  case wrAddr d => rw [effectOf_wrAddr]; exact .inr rfl
  case rdData => rw [effectOf, readDataPort_eq]; exact .inr rfl
  all_goals exact .inr rfl

/-- The request after a TICK, on the dot the TICK starts from: scanline 241 has no skip. -/
theorem tick_nmiPending_eq_or (s : State) :
    s.tick.timing.nmiPending = (s.timing.nmiPending ||
      (decide (s.timing.scanline = 241 ∧ s.timing.dot = 1) && s.bank.ctrl.getLsbD 7)) := by
  rw [tick_nmiPending]
  by_cases hline : s.timing.scanline = 241
  · rw [oddFrameSkip_of_not_skipsDot (State.not_skipsDot_of_scanline (by omega))]
    by_cases hdot : s.timing.dot = 1
    · simp [hline, hdot, ctrlNmiEnable]
    · simp [hdot]
  · simp [hline]

/-- Settles O35: TICK raises the request at (241, 1) only and never clears it, and the other operations never raise
it. -/
theorem oneInterruptSource : Obligations.OneInterruptSource := by
  refine ⟨fun s hline hdot hnmi => ⟨s.tick, exec_tick_vblank (by omega), ?raised⟩, fun i s t hexec => ?_⟩
  case raised => rw [tick_nmiPending_eq_or, decide_eq_true ⟨hline, hdot⟩, hnmi, Bool.true_and, Bool.or_true]
  obtain rfl := exec_next hexec
  by_cases ht : i = .tick
  · subst ht
    rw [effectOf, tick_nmiPending_eq_or]
    refine ⟨fun hclear hset => ?_, fun hset hclear => ?_⟩
    · rw [hclear, Bool.false_or, Bool.and_eq_true, decide_eq_true_eq] at hset
      obtain ⟨⟨hline, hdot⟩, hnmi⟩ := hset
      exact ⟨rfl, hline, hdot, hnmi⟩
    · rw [hset, Bool.true_or] at hclear
      cases hclear
  · rcases effectOf_nmiPending ht s with ⟨hi, hfalse⟩ | hkept
    · exact ⟨fun _ hset => absurd (hfalse.symm.trans hset) Bool.false_ne_true, fun _ _ => hi⟩
    · rw [hkept]
      exact ⟨fun hclear hset => absurd (hclear.symm.trans hset) Bool.false_ne_true,
        fun hset hclear => absurd (hclear.symm.trans hset) Bool.false_ne_true⟩

end Sys2Proof.Machine
end

section
/-! PROOFS. What the three tile queries show (rule R284) for a mapper that declines their reads: every read of a query
is then the internal cell of the machine that the query was asked of. -/

namespace Sys2Proof.Machine

/-! ### Reads that the mapper declines -/

/-- A mapper that declines the next `n + 1` reads declines the first of them. -/
theorem Mapper.DeclinesReads.readAnswer {m : Mapper} {n : Nat} (h : m.DeclinesReads (n + 1)) (a : PpuAddr) :
    m.readAnswer a = none := by
  obtain ⟨rest, hrest⟩ := h
  rw [Mapper.readAnswer, hrest]
  rfl

/-- After the first of them it declines the other `n`. -/
theorem Mapper.DeclinesReads.afterRead {m : Mapper} {n : Nat} (h : m.DeclinesReads (n + 1)) :
    m.afterRead.DeclinesReads n := by
  obtain ⟨rest, hrest⟩ := h
  exact ⟨rest, by rw [Mapper.afterRead_readAnswers, hrest]; rfl⟩

/-- `t` is a point of a query asked of `s`: internal decode answers as in `s`, and `n` more reads will be declined. -/
structure State.AsksOf (s t : State) (n : Nat) : Prop where
  internalRead : ∀ a, t.internalRead a = s.internalRead a
  declines : t.mapper.DeclinesReads n

/-- Asked during a query of `s`, `f` answers `x` by `k` reads. -/
def State.Answers {α : Type} (s : State) (k : Nat) (f : State → α × State) (x : α) : Prop :=
  ∀ t n, s.AsksOf t (n + k) → (f t).1 = x ∧ s.AsksOf (f t).2 n

/-- One debug read answers the internal cell. -/
theorem State.AsksOf.memReadDbg {s t : State} {n : Nat} (h : s.AsksOf t (n + 1)) (addr : BusAddr) :
    (t.memReadDbg addr).1 = s.internalRead (ppuAddr addr) ∧ s.AsksOf (t.memReadDbg addr).2 n := by
  refine ⟨(State.readValue_declined (h.declines.readAnswer _)).trans (h.internalRead _), fun a => ?_,
    h.declines.afterRead⟩
  exact (State.internalRead_congr rfl rfl rfl a).trans (h.internalRead a)

/-- Questions answered one after the other: their answers, in the order of the list. -/
theorem collect_answers {α : Type} {s : State} {k : Nat} {f : Nat → State → α × State} {g : Nat → α}
    (hf : ∀ i, s.Answers k (f i) (g i)) (l : List Nat) : s.Answers (l.length * k) (collect f l) (l.map g) := by
  induction l with
  | nil =>
    intro t n h
    rw [List.length_nil, Nat.zero_mul] at h
    exact ⟨rfl, h⟩
  | cons i rest ih =>
    intro t n h
    rw [List.length_cons, Nat.succ_mul, ← Nat.add_assoc] at h
    obtain ⟨hfirst, hthen⟩ := hf i t _ h
    obtain ⟨hrest, hend⟩ := ih _ n hthen
    exact ⟨congrArg₂ List.cons hfirst hrest, hend⟩

/-! ### The colours of a tile -/

/-- The pixel of a tile that is neither flipped nor intercepted: a bit of each of its row's planes. -/
def State.plainPixel (s : State) (base : BusAddr) (id : Byte) (r c : Nat) : BitVec 2 :=
  let addr := base + (id.setWidth 16 <<< 4) + BitVec.ofNat 16 r
  bitField (s.internalRead (ppuAddr (addr + 8#16))) (7 - c) ++ bitField (s.internalRead (ppuAddr addr)) (7 - c)

/-- The colour of a pixel that is not intercepted: its palette cell. -/
def State.plainColour (s : State) (pal : BitVec 3) (px : BitVec 2) : Colour :=
  (s.internalRead (ppuAddr (0x3F00#16 + (pal.setWidth 16 <<< 2) + px.setWidth 16))).setWidth 6

theorem State.plainTileColour_eq (s : State) (base : BusAddr) (id : Byte) (pal : BitVec 3) (c r : Nat) :
    s.plainTileColour base id pal c r = s.plainColour pal (s.plainPixel base id r c) := rfl

theorem tilePixel_answers (s : State) (base : BusAddr) (id : Byte) (r c : Nat) :
    s.Answers 2 (tilePixel base id r c) (s.plainPixel base id r c) := by
  intro t n h
  obtain ⟨hlo, h⟩ := State.AsksOf.memReadDbg (n := n + 1) h (base + (id.setWidth 16 <<< 4) + BitVec.ofNat 16 r)
  obtain ⟨hhi, h⟩ := h.memReadDbg (base + (id.setWidth 16 <<< 4) + BitVec.ofNat 16 r + 8#16)
  exact ⟨congrArg₂ (bitField · (7 - c) ++ bitField · (7 - c)) hhi hlo, h⟩

theorem debugColour_answers (s : State) (pal : BitVec 3) (px : BitVec 2) :
    s.Answers 1 (debugColour pal px) (s.plainColour pal px) := by
  intro t n h
  obtain ⟨hcell, h⟩ := h.memReadDbg (0x3F00#16 + (pal.setWidth 16 <<< 2) + px.setWidth 16)
  exact ⟨congrArg (BitVec.setWidth 6) hcell, h⟩

/-- A colour of a tile takes three reads: two for the pixel and one for its colour. -/
theorem tileColour_answers (s : State) (base : BusAddr) (id : Byte) (pal : BitVec 3) (c r : Nat) :
    s.Answers 3 (tileColour base id pal c r) (s.plainTileColour base id pal c r) := by
  intro t n h
  obtain ⟨hpixel, h⟩ := tilePixel_answers s base id r c t (n + 1) h
  obtain ⟨hcolour, h⟩ := debugColour_answers s pal _ _ n h
  exact ⟨by rw [State.plainTileColour_eq, ← hpixel]; exact hcolour, h⟩

/-- The colours that a query of the tile shows, column by column. -/
def State.plainTile (s : State) (base : BusAddr) (id : Byte) (pal : BitVec 3) : Tile :=
  (List.range 8).map fun c => (List.range 8).map fun r => s.plainTileColour base id pal c r

theorem State.plainTile_at (s : State) (base : BusAddr) (id : Byte) (pal : BitVec 3) {c r : Nat} (hc : c < 8)
    (hr : r < 8) : ((s.plainTile base id pal)[c]?.bind (·[r]?)) = some (s.plainTileColour base id pal c r) := by
  simp [State.plainTile, List.getElem?_range hc, List.getElem?_range hr]

/-- The 64 colours of a tile take 192 reads. -/
theorem tileColours_answers (s : State) (base : BusAddr) (id : Byte) (pal : BitVec 3) :
    s.Answers 192 (tileColours base id pal) (s.plainTile base id pal) :=
  collect_answers (fun c => collect_answers (tileColour_answers s base id pal c) (List.range 8)) (List.range 8)

/-- With a mapper attached, a query is answered by the tile that it computed. -/
theorem answerQuery_attached {s : State} (hm : s.mapper.attached = true) (q : Tile × State) :
    answerQuery s q = .next (q.1, q.2) := State.withMapper_attached q hm

/-- A query of the tile, asked at a point of a query of `s`, shows the tile's colours in `s`. -/
theorem answerQuery_tileColours {s t : State} {n : Nat} (hm : s.mapper.attached = true) (h : s.AsksOf t (n + 192))
    (base : BusAddr) (id : Byte) (pal : BitVec 3) :
    ∃ u, answerQuery s (tileColours base id pal t) = .next (s.plainTile base id pal, u) := by
  rw [answerQuery_attached hm, (tileColours_answers s base id pal t n h).1]
  exact ⟨_, rfl⟩

/-! ### Which tile and palette a query shows -/

/-- The pattern base of a bank bit. -/
theorem patternBase_ofBool (b : Bool) :
    ((BitVec.ofBool b).setWidth 16 <<< 12 : BusAddr) = if b then 0x1000#16 else 0#16 := by
  cases b <;> rfl

theorem ppuAddr_queryTileIdAddr (nt : BitVec 2) (col row : BitVec 5) :
    ppuAddr (queryTileIdAddr nt col row) =
      BitVec.ofNat 14 (0x2000 + 1024 * nt.toNat + 32 * row.toNat + col.toNat) := by
  refine BitVec.eq_of_toNat_eq ?_
  have hnt := nt.isLt
  have hcol := col.isLt
  have hrow := row.isLt
  simp only [ppuAddr, queryTileIdAddr, BitVec.toNat_add, BitVec.toNat_shiftLeft, BitVec.toNat_setWidth,
    BitVec.toNat_ofNat, Nat.shiftLeft_eq]
  omega

theorem ppuAddr_queryAttrAddr (nt : BitVec 2) (col row : BitVec 5) :
    ppuAddr (queryAttrAddr nt col row) =
      BitVec.ofNat 14 (0x23C0 + 1024 * nt.toNat + 8 * (row.toNat / 4) + col.toNat / 4) := by
  refine BitVec.eq_of_toNat_eq ?_
  have hnt := nt.isLt
  have hcol := col.isLt
  have hrow := row.isLt
  simp only [ppuAddr, queryAttrAddr, BitVec.toNat_add, BitVec.toNat_shiftLeft, BitVec.toNat_ushiftRight,
    BitVec.toNat_setWidth, BitVec.toNat_ofNat, Nat.shiftLeft_eq, Nat.shiftRight_eq_div_pow]
  omega

theorem and_two_eq_ite (x : BitVec 5) : x &&& 2#5 = if x.getLsbD 1 then 2#5 else 0#5 := by
  revert x
  decide

/-- A nametable query takes the quadrant that the background fetch takes at the cell's coarse scroll (rule R167). -/
theorem queryPalette_eq_attrQuadrant (at0 : Byte) (col row : BitVec 5) :
    queryPalette at0 col row = attrQuadrant (compositeAddr 0#3 0#1 0#1 row col) at0 := by
  rw [queryPalette, attrQuadrant, coarseX_compositeAddr, coarseY_compositeAddr, and_two_eq_ite, and_two_eq_ite]
  cases row.getLsbD 1 <;> cases col.getLsbD 1
  · rfl
  · rfl
  · rfl
  · exact congrArg (BitVec.extractLsb' 0 2) (BitVec.shiftRight_add at0 4 2)

/-- That quadrant as a palette number. -/
theorem queryPalette_setWidth (at0 : Byte) (col row : BitVec 5) :
    (queryPalette at0 col row).setWidth 3 =
      BitVec.ofNat 3 (at0.toNat / 4 ^ (col.toNat / 2 % 2 + 2 * (row.toNat / 2 % 2)) % 4) := by
  rw [← BitVec.ofNat_toNat, queryPalette_eq_attrQuadrant, attrQuadrant_toNat, coarseX_compositeAddr,
    coarseY_compositeAddr]

/-- A sprite's palette is one of 4 … 7 (rules R32, R222). -/
theorem spritePalette_eq_ofNat (attr : Byte) : 1#1 ++ attrSpPal attr = BitVec.ofNat 3 (4 + attr.toNat % 4) := by
  refine BitVec.eq_of_toNat_eq ?_
  rw [toNat_append_add, attrSpPal, BitVec.extractLsb'_toNat, BitVec.toNat_ofNat, BitVec.toNat_ofNat,
    Nat.shiftRight_zero]
  omega

theorem spriteQueryBase_eq (ctrl id : Byte) :
    spriteQueryBase ctrl id =
      if (if ctrl.getLsbD 5 then id.getLsbD 0 else ctrl.getLsbD 3) then 0x1000#16 else 0#16 := by
  rw [← patternBase_ofBool, spriteQueryBase, ctrlSpSize16]
  cases ctrl.getLsbD 5 <;> rfl

/-- A nametable query finds its tile and its palette by two reads more. -/
theorem nametableTile_shows {s : State} (hm : s.mapper.attached = true) (hdeclines : s.mapper.DeclinesReads 194)
    (nt : BitVec 2) (col row : BitVec 5) :
    ∃ t, nametableTile nt col row s = .next (s.plainTile ((ctrlBgBank s.bank.ctrl).setWidth 16 <<< 12)
      (s.internalRead (ppuAddr (queryTileIdAddr nt col row)))
      ((queryPalette (s.internalRead (ppuAddr (queryAttrAddr nt col row))) col row).setWidth 3), t) := by
  have hstart : s.AsksOf s (193 + 1) := ⟨fun _ => rfl, hdeclines⟩
  obtain ⟨hid, hnext⟩ := hstart.memReadDbg (queryTileIdAddr nt col row)
  obtain ⟨hattr, hnext⟩ := State.AsksOf.memReadDbg (n := 0 + 192) hnext (queryAttrAddr nt col row)
  rw [← hid, ← hattr]
  exact answerQuery_tileColours hm hnext _ _ _

/-- Settles O60: each query shows the colours of one tile, found in the internal cells. -/
theorem tileQueryColours : Obligations.TileQueryColours := by
  intro s hm hdeclines
  have hstart : s.AsksOf s (2 + 192) := ⟨fun _ => rfl, hdeclines⟩
  refine ⟨fun bank id pal => ?pattern, fun nt col row _ => ?nametable, fun n => ?sprite⟩
  case pattern =>
    obtain ⟨t, ht⟩ := answerQuery_tileColours hm hstart (bank.setWidth 16 <<< 12) id pal
    exact ⟨_, t, ht, fun c r hc hr => s.plainTile_at _ _ _ hc hr⟩
  case nametable =>
    obtain ⟨t, ht⟩ := nametableTile_shows hm hdeclines nt col row
    refine ⟨_, t, ht, fun c r hc hr => ?_⟩
    rw [s.plainTile_at _ _ _ hc hr, ppuAddr_queryTileIdAddr, ppuAddr_queryAttrAddr, queryPalette_setWidth, ctrlBgBank,
      bitField, patternBase_ofBool]
  case sprite =>
    obtain ⟨t, ht⟩ := answerQuery_tileColours hm hstart (spriteQueryBase s.bank.ctrl (s.oamByte (4 * n.toNat + 1)))
      (spriteQueryTile s.bank.ctrl (s.oamByte (4 * n.toNat + 1))) (1#1 ++ attrSpPal (s.oamByte (4 * n.toNat + 2)))
    refine ⟨_, t, ht, fun c r hc hr => ?_⟩
    rw [s.plainTile_at _ _ _ hc hr, spriteQueryBase_eq, spritePalette_eq_ofNat]
    rfl

end Sys2Proof.Machine
end
